-- ==== Sys2Proof/Word.lean ====
section
/-! DEFINITION. The bit vectors of LCDSEQ: command and trace words, bytes, nibbles (spec/00_scope.md R6, R7). -/

namespace Sys2Proof

/-- A host command word (format C) or a trace word (format U): 16 bits (R7, R71). -/
abbrev Word16 := BitVec 16

/-- A payload byte or a response byte: 8 bits (R6, R7). -/
abbrev Byte := BitVec 8

/-- A nibble: 4 bits (R6). -/
abbrev Nibble := BitVec 4

end Sys2Proof
end

