-- ==== Sys2Proof/Syntax.lean ====
section
/-! DEFINITION. The instructions of LCDSEQ: one constructor per row of spec/opcode_table.json, and the operand types. -/

namespace Sys2Proof

/-- A Logical Pin Role, in the order of its 3-bit code (spec/10_state.md R23; the source's EnableA is `en`, EnableB `en2`). -/
inductive Role where
  | en | en2 | rs | d4 | d5 | d6 | d7 | bl
  deriving DecidableEq, Repr, Inhabited

/-- One value for each of the eight roles (R42: every code 0 to 7 names a role). -/
structure PerRole (α : Type) where
  en  : α
  en2 : α
  rs  : α
  d4  : α
  d5  : α
  d6  : α
  d7  : α
  bl  : α
  deriving DecidableEq, Repr, Inhabited

/-- targetDisplay (R63, R65): the 2-bit code 11 is reserved and is refused by the decoder. -/
inductive Target where
  | all | first | second
  deriving DecidableEq, Repr, Inhabited

/-- mode (R63, R65): Instruction or Data. -/
inductive Mode where
  | instruction | data
  deriving DecidableEq, Repr, Inhabited

/-- A delay class (spec/30_encoding.md R77). -/
inductive DelayClass where
  | t | pb1 | pb2 | pb3
  deriving DecidableEq, Repr, Inhabited

/-- The instructions: the seven host commands of format C (R63) and the four primitives of format U (R64). -/
inductive Instr where
  | bind
  | acqall
  | bringup
  | start
  | send (tgt : Target) (mode : Mode) (value : Byte)
  | bl (state : Bool)
  | close
  | uacq (role : Role)
  | uwr (role : Role) (lvl : Bool)
  | urel (role : Role)
  /-- `cls` is the 8-bit field as it stands in the word (R64); only 0 to 3 are assigned (R77). -/
  | udly (cls : Byte)
  deriving DecidableEq, Repr, Inhabited

end Sys2Proof
end

