-- ==== Sys2Proof/WellFormed.lean ====
section
/-! DEFINITION. Which instructions are well-formed: those that a legal word stands for (spec/30_encoding.md R69, R77). -/

namespace Sys2Proof

/-- Every operand but `cls` is of a type that holds only its assigned values; a delay class from 4 to 255 is reserved
(R69, R77). -/
def Instr.wf (i : Instr) : Bool :=
  match i with
  | .bind => true
  | .acqall => true
  | .bringup => true
  | .start => true
  | .send _ _ _ => true
  | .bl _ => true
  | .close => true
  | .uacq _ => true
  | .uwr _ _ => true
  | .urel _ => true
  | .udly cls => decide (cls.toNat < 4)

end Sys2Proof
end

