-- ==== Sys2Proof/Decode.lean ====
section
/-! DEFINITION. The decoders of command words and trace words, total over all 65536 words and rejecting by name, and after
them the encoder (spec/30_encoding.md R63 to R80). -/

namespace Sys2Proof

/-- Why a word is refused. The first four are the ways to be Illegal on the command port (R69 (a) to (e)); the last two are
the ways not to be a trace word (R69, R77). -/
inductive Reject where
  /-- Opcode 0x0 or 0xC to 0xF (R69 (a)). -/
  | reservedOpcode
  /-- Opcode 0x8 to 0xB on the command port (R69 (b)). -/
  | traceWord
  /-- A bit that must be zero is not (R69 (c), (d), (e)). -/
  | constantBits
  /-- SEND with tgt = 0b11 (R69 (d)). -/
  | reservedTarget
  /-- The opcode is not one of format U (R64). -/
  | notTraceOpcode
  /-- A UDLY word with `cls` 4 to 255 (R69, R77). -/
  | reservedClass
  deriving DecidableEq, Repr

/-- Opcode w[15:12] (R63, R64). -/
def fieldOp (w : Word16) : BitVec 4 := w.extractLsb' 12 4

/-- tgt = w[11:10] (R65). -/
def fieldTgt (w : Word16) : BitVec 2 := w.extractLsb' 10 2

/-- mode = w[8] (R65). -/
def fieldMode (w : Word16) : BitVec 1 := w.extractLsb' 8 1

/-- value = w[7:0], and cls = w[7:0] in a UDLY word (R65). -/
def fieldByte (w : Word16) : Byte := w.extractLsb' 0 8

/-- role = w[10:8], in a trace word (R65). -/
def fieldRole (w : Word16) : BitVec 3 := w.extractLsb' 8 3

/-- state = w[0] in BL, lvl = w[0] in UWR (R65). -/
def fieldBit0 (w : Word16) : Bool := w.getLsbD 0

/-- Target display of a 2-bit code; 11 is reserved (R63). -/
def Target.ofCode (c : BitVec 2) : Option Target :=
  if c = 0 then some .all else if c = 1 then some .first else if c = 2 then some .second else none

/-- Mode of a 1-bit code (R63). -/
def Mode.ofCode (c : BitVec 1) : Mode := if c = 0 then .instruction else .data

/-- Role of a 3-bit code (R23). -/
def Role.ofCode (c : BitVec 3) : Role :=
  if c = 0 then .en else if c = 1 then .en2 else if c = 2 then .rs else if c = 3 then .d4
  else if c = 4 then .d5 else if c = 5 then .d6 else if c = 6 then .d7 else .bl

/-- Delay class of an 8-bit field; 4 to 255 are reserved (R77). -/
def DelayClass.ofCode (c : Byte) : Option DelayClass :=
  if c = 0 then some .t else if c = 1 then some .pb1 else if c = 2 then some .pb2
  else if c = 3 then some .pb3 else none

/-- A command whose operand bits w[11:0] are all constant zeros (R63, R69 (c)). -/
def plainCommand (w : Word16) (i : Instr) : Except Reject Instr :=
  if w.extractLsb' 0 12 = 0 then .ok i else .error .constantBits

/-- SEND's operands (R63, R69 (d)). -/
def decodeSend (w : Word16) : Except Reject Instr :=
  match Target.ofCode (fieldTgt w) with
  | none => .error .reservedTarget
  | some tgt =>
    if w.getLsbD 9 then .error .constantBits
    else .ok (.send tgt (Mode.ofCode (fieldMode w)) (fieldByte w))

/-- BL's operand (R63, R69 (e)). -/
def decodeBl (w : Word16) : Except Reject Instr :=
  if w.extractLsb' 1 11 = 0 then .ok (.bl (fieldBit0 w)) else .error .constantBits

/-- `Decode`, the decoder of the command port (R76): a host command, or Illegal with the clause of R69 that says why. -/
def decodePort (w : Word16) : Except Reject Instr :=
  let op := fieldOp w
  if op = 0x1 then plainCommand w .bind
  else if op = 0x2 then plainCommand w .acqall
  else if op = 0x3 then plainCommand w .bringup
  else if op = 0x4 then plainCommand w .start
  else if op = 0x5 then decodeSend w
  else if op = 0x6 then decodeBl w
  else if op = 0x7 then plainCommand w .close
  else if op = 0x8 ∨ op = 0x9 ∨ op = 0xA ∨ op = 0xB then .error .traceWord
  else .error .reservedOpcode

/-- The decoder of trace words (R64, R69): what is none of the assigned patterns of R78 is reported as not a trace word. -/
def decodeTrace (w : Word16) : Except Reject Instr :=
  let op := fieldOp w
  let role := Role.ofCode (fieldRole w)
  if op = 0x8 then
    if w.getLsbD 11 = false ∧ fieldByte w = 0 then .ok (.uacq role) else .error .constantBits
  else if op = 0x9 then
    if w.getLsbD 11 = false ∧ w.extractLsb' 1 7 = 0 then .ok (.uwr role (fieldBit0 w)) else .error .constantBits
  else if op = 0xA then
    if w.getLsbD 11 = false ∧ fieldByte w = 0 then .ok (.urel role) else .error .constantBits
  else if op = 0xB then
    if w.extractLsb' 8 4 = 0 then
      match DelayClass.ofCode (fieldByte w) with
      | some _ => .ok (.udly (fieldByte w))
      | none => .error .reservedClass
    else .error .constantBits
  else .error .notTraceOpcode

/-- The instruction of the opcode table that a word stands for: a host command or a trace word (R68; the two formats have
disjoint opcodes). -/
def decodeWord (w : Word16) : Except Reject Instr :=
  match decodePort w with
  | .ok i => .ok i
  | .error e =>
    match e with
    | .traceWord => decodeTrace w
    | e => .error e

/-- The decoder on a row of spec/opcode_table.json: every row is one 16-bit word (R71). -/
def decodeTableWord (nbits w : Nat) : Option Instr :=
  match decodeWord (BitVec.ofNat 16 (w % 2 ^ nbits)) with
  | .ok i => some i
  | .error _ => none

/-- The 2-bit code of a target (R63). -/
def Target.code : Target → BitVec 2
  | .all => 0
  | .first => 1
  | .second => 2

/-- The 1-bit code of a mode (R63). -/
def Mode.code : Mode → BitVec 1
  | .instruction => 0
  | .data => 1

/-- The 3-bit code of a role (R23). -/
def Role.code : Role → BitVec 3
  | .en => 0
  | .en2 => 1
  | .rs => 2
  | .d4 => 3
  | .d5 => 4
  | .d6 => 5
  | .d7 => 6
  | .bl => 7

/-- The 8-bit `cls` field of a delay class (R77). -/
def DelayClass.code : DelayClass → Byte
  | .t => 0
  | .pb1 => 1
  | .pb2 => 2
  | .pb3 => 3

/-- The word of an instruction: the patterns of R78. -/
def encode (i : Instr) : Word16 :=
  match i with
  | .bind => 0x1000
  | .acqall => 0x2000
  | .bringup => 0x3000
  | .start => 0x4000
  | .send tgt mode value => (0x5 : BitVec 4) ++ tgt.code ++ (0 : BitVec 1) ++ mode.code ++ value
  | .bl state => (0x6 : BitVec 4) ++ (0 : BitVec 11) ++ BitVec.ofBool state
  | .close => 0x7000
  | .uacq role => (0x8 : BitVec 4) ++ (0 : BitVec 1) ++ role.code ++ (0 : BitVec 8)
  | .uwr role lvl => (0x9 : BitVec 4) ++ (0 : BitVec 1) ++ role.code ++ (0 : BitVec 7) ++ BitVec.ofBool lvl
  | .urel role => (0xA : BitVec 4) ++ (0 : BitVec 1) ++ role.code ++ (0 : BitVec 8)
  | .udly cls => (0xB : BitVec 4) ++ (0 : BitVec 4) ++ cls

end Sys2Proof
end

