-- ==== Sys2Proof/Config.lean ====
section
/-! DEFINITION. The arguments of the model that an implementation fixes (spec/00_scope.md R8), the configuration inputs (R9)
and the draws (R10). What the spec marks OPEN is an opaque constant: nothing can be proved of its value. -/

namespace Sys2Proof

/-- P_BRINGUP_TARGET ∈ (All, First) (R8). -/
inductive BringupTarget where
  | all | first
  deriving DecidableEq, Repr, Inhabited

/-- A set of physical ids as plain data: the ids listed answer `!rest`, every other id answers `rest`.
It stands for the predicate P_BL_IN_RANGE : Nat → Bool (R8); see notes/assumptions/3.md. -/
structure IdRange where
  listed : List Nat
  rest   : Bool
  deriving DecidableEq, Repr, Inhabited

/-- The implementation parameters (R8). Times are in nanoseconds. -/
structure Params where
  tHold         : Nat
  pb1           : Nat
  pb2           : Nat
  pb3           : Nat
  funcset4      : Byte
  bringupTarget : BringupTarget
  defaultPin    : PerRole Nat
  blInRange     : IdRange
  unwind        : Bool
  /-- P_GPIO_ROOT: no rule reads it (R8, R44). -/
  gpioRoot      : String
  deriving DecidableEq, Repr, Inhabited

/-- The configuration inputs of one instance, read once by BIND (R9). -/
structure Inputs where
  cfgPin       : PerRole (Option Nat)
  cfgMulti     : Bool
  cfgBlPresent : Bool
  deriving DecidableEq, Repr, Inhabited

/-- The free inputs of ONE step (R10): the answers of the OS, the clock and the controller observer.
A step reads the fields its rule draws and no others. -/
structure Draw where
  allocOk  : Bool
  exportOk : Bool
  dirOk    : Bool
  openOk   : Bool
  writeOk  : Bool
  /-- DUR, for a Sleep(d) the excess over d (R56). -/
  dur      : Nat
  /-- At an undefined edge: does the controller append a record (R58)? -/
  latches  : Bool
  /-- LATCH_ANY (R10, R58): the contents of a record that samples an undefined level. -/
  latchRs  : Bool
  latchNib : Nibble
  deriving DecidableEq, Repr, Inhabited

/-- P_T_HOLD: the source's reference value, 50 µs (R8). -/
def Config.tHold : Nat := 50000

/-- P_PB1: OPEN (R8). -/
opaque Config.pb1 : Nat

/-- P_PB2: OPEN (R8). -/
opaque Config.pb2 : Nat

/-- P_PB3: OPEN (R8). -/
opaque Config.pb3 : Nat

/-- P_FUNCSET4: OPEN (R8). -/
opaque Config.funcset4 : Byte

/-- P_BRINGUP_TARGET: All (R8). -/
def Config.bringupTarget : BringupTarget := .all

/-- P_DEFAULT_PIN[r]: OPEN for each role (R8). -/
opaque Config.defaultPin : PerRole Nat

/-- P_BL_IN_RANGE: OPEN (R8). -/
opaque Config.blInRange : IdRange

/-- P_UNWIND: false (R8). -/
def Config.unwind : Bool := false

/-- P_GPIO_ROOT: OPEN, read by no rule (R8). -/
opaque Config.gpioRoot : String

/-- CFG_PIN[r], CFG_MULTI, CFG_BLPRESENT: the caller's choice (R9). -/
opaque Config.inputs : Inputs

/-- The draws that no explicit script supplies: a fresh record for each step, by the step's draw number (R10). -/
opaque Config.freeDraw : Nat → Draw

/-- The parameters of the reset state: the spec's values, and the OPEN ones opaque (R8). -/
def Config.params : Params where
  tHold         := Config.tHold
  pb1           := Config.pb1
  pb2           := Config.pb2
  pb3           := Config.pb3
  funcset4      := Config.funcset4
  bringupTarget := Config.bringupTarget
  defaultPin    := Config.defaultPin
  blInRange     := Config.blInRange
  unwind        := Config.unwind
  gpioRoot      := Config.gpioRoot

end Sys2Proof
end

