-- ==== Sys2Proof/Machine/State.lean ====
section
/-! DEFINITION. The state of one LCDSEQ instance (spec/10_state.md R17), plain data, and its value at reset
(spec/70_reset_and_hazards.md R129). -/

namespace Sys2Proof.Machine

/-- The agents of the model (spec/00_scope.md R5). -/
inductive Agent where
  | host | sequencer | os | clock | controller1 | controller2
  deriving DecidableEq, Repr

/-- PHASE (R18). `reserved` is code 0b111, which is never held. -/
inductive Phase where
  | unconfigured | pinsBound | pinsAcquired | controllerBroughtUp | operational | released | failed | reserved
  deriving DecidableEq, Repr, Inhabited

/-- CFG_NC ∈ (1, 2) (R20). -/
inductive Controllers where
  | one | two
  deriving DecidableEq, Repr, Inhabited

/-- The direction of a Managed Pin (R24). -/
inductive Dir where
  | input | output
  deriving DecidableEq, Repr, Inhabited

/-- A Managed Pin record (R24). `lvl = none` is an undefined level. -/
structure Pin where
  acq : Bool
  dir : Dir
  hnd : Bool
  lvl : Option Bool
  deriving DecidableEq, Repr, Inhabited

/-- FAULT, the sticky fault record (R26). -/
structure FaultRec where
  valid : Bool
  code  : BitVec 4
  role  : Option Role
  id    : Option Nat
  cmd   : Word16
  deriving DecidableEq, Repr, Inhabited

/-- A record of LATCH[k] (R32). -/
structure LatchRec where
  rs  : Bool
  nib : Nibble
  t   : Nat
  deriving DecidableEq, Repr, Inhabited

/-- A primitive of a running command (R64): the call that one trace word names. -/
inductive Prim where
  | acq (role : Role)
  | wr (role : Role) (lvl : Bool)
  | rel (role : Role)
  | dly (cls : DelayClass)
  deriving DecidableEq, Repr, Inhabited

/-- What the running command does after its last primitive: the closing lines of its pseudocode. -/
inductive Finish where
  /-- SEND and BL: nothing but `End(0x00)` (R89, R95). -/
  | done
  /-- ACQALL: PHASE <- PinsAcquired (R103). -/
  | acquired
  /-- ACQALL after a failed Acquire(r): raise PinUnavailable(r, BIND[r]) (R103, R104). -/
  | unavailable (role : Role)
  /-- BRINGUP: PHASE <- ControllerBroughtUp (R105). -/
  | broughtUp
  /-- CLOSE: free the binding, PHASE <- Released (R110). -/
  | closed
  deriving DecidableEq, Repr, Inhabited

/-- A move of the host while the block is idle (R5, R66): present one command word, or let time pass (R56). -/
inductive HostMove where
  | issue (w : Word16)
  | idle
  deriving DecidableEq, Repr, Inhabited

/-- The complete state. The first group is the tuple of R17; the second is the position inside the running command that
R16 and R33 call the microprogram position, kept as the primitives still to come; the third is the model's arguments
(R8, R9); the fourth is what the other agents will do (R5, R10, R66). -/
structure State where
  /-- PHASE (R18). -/
  phase  : Phase
  /-- CFG_NC (R20). -/
  cfgNc  : Option Controllers
  /-- CFG_BLP (R20). -/
  cfgBlp : Option Bool
  /-- ACTIVE[r] (R21). -/
  active : PerRole Bool
  /-- BIND[r] (R22). -/
  bind   : PerRole (Option Nat)
  /-- PIN[r] (R24). -/
  pin    : PerRole Pin
  /-- FAULT (R26). -/
  fault  : FaultRec
  /-- RESP (R27). -/
  resp   : Byte
  /-- BUSY (R28). -/
  busy   : Bool
  /-- HOOKS (R29): bit 0 SEND, bit 1 BL. -/
  hooks  : BitVec 2
  /-- TRACE (R30), oldest first. -/
  trace  : List (Word16 × Nat)
  /-- NOW, in nanoseconds (R31). -/
  now    : Nat
  /-- LATCH[1] (R32), oldest first. -/
  latch1 : List LatchRec
  /-- LATCH[2] (R32), oldest first. -/
  latch2 : List LatchRec
  /-- CUR (R33). -/
  cur    : Option Word16
  /-- UPC (R33). -/
  upc    : Nat
  /-- The primitives of the running command that are not finished, the current one first. -/
  plan   : List Prim
  /-- How many OS requests of the current primitive are done (R13). -/
  stage  : Nat
  /-- What follows the last primitive. -/
  fin    : Finish
  /-- The implementation parameters (R8); no step writes them. -/
  params : Params
  /-- The configuration inputs (R9); no step writes them. -/
  inputs : Inputs
  /-- The host's moves to come (R16: "The host's sequence of commands is the only program"). -/
  host   : List HostMove
  /-- Draws supplied explicitly, one record a step, the next one first (R10). -/
  script : List Draw
  /-- The number of the next step's draw, for the draws that the script does not supply. -/
  drawIx : Nat
  deriving DecidableEq, Repr

/-- Reasons for which a step has no next state. -/
inductive Fault where
  /-- Raised by the sequencer's move when BUSY = 1 and no primitive is left: the spec has no step there and no run reaches it
  (spec/30_encoding.md R67 ends every command). Safe: the model stops. -/
  | noPrimitive
  deriving DecidableEq, Repr

/-- Reasons for which a step is refused. -/
inductive Refusal where
  /-- Raised by an arm of exec that has no meaning yet. Safe. -/
  | notModelled (mnemonic : String)
  /-- Raised by a host command executed while BUSY = 1: "the host has no move" (R66 (b); 93_implementation_defined.md U21,
  treatment refuse). No step raises it. Safe. -/
  | portBusy
  /-- Raised by every step in PHASE 0b111 (R18, X5: "a model must treat it as refuse"). No run reaches it. Safe. -/
  | reservedPhase
  /-- Raised by UDLY with a reserved `cls`, an ill-formed instruction that no decoder gives (R69, X4: refuse). Safe. -/
  | reservedDelayClass
  deriving DecidableEq, Repr

/-- PIN[r] at reset and after a Release (R24, R83). -/
def Pin.idle : Pin where
  acq := false
  dir := .input
  hnd := false
  lvl := none

/-- FAULT at reset (R26). -/
def FaultRec.none : FaultRec where
  valid := false
  code  := 0
  role  := Option.none
  id    := Option.none
  cmd   := 0x0000

/-- The same value for every role. -/
def every {α : Type} (a : α) : PerRole α where
  en  := a
  en2 := a
  rs  := a
  d4  := a
  d5  := a
  d6  := a
  d7  := a
  bl  := a

/-- The instance right after its creation (R129). -/
def State.reset : State where
  phase  := .unconfigured
  cfgNc  := none
  cfgBlp := none
  active := every false
  bind   := every none
  pin    := every Pin.idle
  fault  := FaultRec.none
  resp   := 0x00
  busy   := false
  hooks  := 0b00
  trace  := []
  now    := 0
  latch1 := []
  latch2 := []
  cur    := none
  upc    := 0
  plan   := []
  stage  := 0
  fin    := .done
  params := Config.params
  inputs := Config.inputs
  host   := []
  script := []
  drawIx := 0

end Sys2Proof.Machine
end

