-- ==== Sys2Proof/Machine/Operands.lean ====
section
/-! DEFINITION. Operand forms: roles and their order, the nibbles of a byte, the enables of a target, the delay bounds, and
the primitive sequences that commands expand to. -/

namespace Sys2Proof

/-- The value for one role. -/
def PerRole.get {α : Type} (m : PerRole α) (r : Role) : α :=
  match r with
  | .en => m.en
  | .en2 => m.en2
  | .rs => m.rs
  | .d4 => m.d4
  | .d5 => m.d5
  | .d6 => m.d6
  | .d7 => m.d7
  | .bl => m.bl

/-- The table with the value of one role replaced. -/
def PerRole.set {α : Type} (m : PerRole α) (r : Role) (a : α) : PerRole α :=
  match r with
  | .en => { m with en := a }
  | .en2 => { m with en2 := a }
  | .rs => { m with rs := a }
  | .d4 => { m with d4 := a }
  | .d5 => { m with d5 := a }
  | .d6 => { m with d6 := a }
  | .d7 => { m with d7 := a }
  | .bl => { m with bl := a }

/-- The table whose value for each role a function gives. -/
def PerRole.ofFn {α : Type} (f : Role → α) : PerRole α where
  en  := f .en
  en2 := f .en2
  rs  := f .rs
  d4  := f .d4
  d5  := f .d5
  d6  := f .d6
  d7  := f .d7
  bl  := f .bl

/-- P_BL_IN_RANGE applied to an id (spec/00_scope.md R8). -/
def IdRange.holds (p : IdRange) (id : Nat) : Bool := if p.listed.contains id then !p.rest else p.rest

/-- P_BRINGUP_TARGET as a target (R8). -/
def BringupTarget.target : BringupTarget → Target
  | .all => .all
  | .first => .first

/-- The RS level of a mode: low for Instruction, high for Data (R47, R89). -/
def Mode.level : Mode → Bool
  | .instruction => false
  | .data => true

/-- v[7:4] (R46). -/
def highNibble (v : Byte) : Nibble := v.extractLsb' 4 4

/-- v[3:0] (R46). -/
def lowNibble (v : Byte) : Nibble := v.extractLsb' 0 4

/-- The nibble on lines D7, D6, D5, D4 (R46, R58). -/
def nibbleOfLines (d7 d6 d5 d4 : Bool) : Nibble :=
  BitVec.ofBool d7 ++ BitVec.ofBool d6 ++ BitVec.ofBool d5 ++ BitVec.ofBool d4

/-- ACQ_ORDER (spec/42_lifecycle.md). -/
def acqOrder : List Role := [.en, .rs, .d7, .d6, .d5, .d4, .bl, .en2]

/-- REL_ORDER (spec/42_lifecycle.md, decision D16). -/
def relOrder : List Role := [.en2, .bl, .d4, .d5, .d6, .d7, .rs, .en]

namespace Machine

/-- The 3-bit code of a phase (R18). -/
def Phase.code : Phase → BitVec 3
  | .unconfigured => 0b000
  | .pinsBound => 0b001
  | .pinsAcquired => 0b010
  | .controllerBroughtUp => 0b011
  | .operational => 0b100
  | .released => 0b101
  | .failed => 0b110
  | .reserved => 0b111

/-- `Legal(c, PHASE)` (spec/60_exceptions.md R114). A trace word is a legal command in no phase: it is no command (R69 (b)). -/
def legal (i : Instr) (p : Phase) : Bool :=
  match i with
  | .bind => p = .unconfigured
  | .acqall => p = .pinsBound
  | .bringup => p = .pinsAcquired
  | .start => p = .controllerBroughtUp
  | .send _ _ _ => p = .operational
  | .bl _ => p = .operational
  | .close => true
  | .uacq _ => false
  | .uwr _ _ => false
  | .urel _ => false
  | .udly _ => false

/-- Enables(tgt): the enable roles that a transmission pulses, in order; `none` where TargetUnavailable is raised (R90). -/
def enables (tgt : Target) (nc : Option Controllers) : Option (List Role) :=
  match tgt with
  | .first => some [.en]
  | .all => if nc = some .two then some [.en, .en2] else some [.en]
  | .second => if nc = some .two then some [.en2] else none

/-- The bound of a delay class (R77, R84). -/
def delayBound (p : Params) : DelayClass → Nat
  | .t => p.tHold
  | .pb1 => p.pb1
  | .pb2 => p.pb2
  | .pb3 => p.pb3

/-- The four data-line writes of a nibble, D7 first (R51, R91). -/
def dataWrites (n : Nibble) : List Prim :=
  [.wr .d7 (n.getLsbD 3), .wr .d6 (n.getLsbD 2), .wr .d5 (n.getLsbD 1), .wr .d4 (n.getLsbD 0)]

/-- SendNibble (R91): clear, hold, drive, hold, rising edges, hold, falling edges, hold. -/
def sendNibble (es : List Role) (n : Nibble) : List Prim :=
  dataWrites 0 ++ [.dly .t] ++ dataWrites n ++ [.dly .t]
    ++ es.map (fun e => .wr e true) ++ [.dly .t] ++ es.map (fun e => .wr e false) ++ [.dly .t]

/-- SendSeq (R91): RS by mode, then the high nibble, then the low nibble. -/
def sendSeq (es : List Role) (mode : Mode) (v : Byte) : List Prim :=
  .wr .rs mode.level :: (sendNibble es (highNibble v) ++ sendNibble es (lowNibble v))

/-- The primitives of BRINGUP (R105). -/
def bringupSeq (es : List Role) (funcset4 : Byte) : List Prim :=
  sendSeq es .instruction 0x33 ++ [.dly .pb1]
    ++ sendSeq es .instruction 0x32 ++ [.dly .pb2]
    ++ sendSeq es .instruction funcset4 ++ [.dly .pb3]

/-- The primitives of ACQALL: the active roles in ACQ_ORDER (R103). -/
def acquireSeq (active : PerRole Bool) : List Prim := (acqOrder.filter active.get).map .acq

/-- The primitives of CLOSE: the active roles in REL_ORDER (R110). -/
def releaseSeq (active : PerRole Bool) : List Prim := (relOrder.filter active.get).map .rel

/-- The primitives of Unwind(done) when Acquire(r) fails: `done` is the active roles before r in ACQ_ORDER, released in
reverse (R104); none when P_UNWIND is false (R103). -/
def unwindSeq (p : Params) (active : PerRole Bool) (r : Role) : List Prim :=
  if p.unwind then (((acqOrder.takeWhile (fun q => q != r)).filter active.get).reverse).map .rel else []

/-- The trace word's instruction of a primitive (R64). -/
def Prim.toInstr : Prim → Instr
  | .acq r => .uacq r
  | .wr r b => .uwr r b
  | .rel r => .urel r
  | .dly c => .udly c.code

/-- res(r): the configured id or the default (R101). -/
def resolve (inputs : Inputs) (params : Params) (r : Role) : Nat :=
  (inputs.cfgPin.get r).getD (params.defaultPin.get r)

/-- nc: two controllers when CFG_MULTI (R20, R101). -/
def controllerCount (inputs : Inputs) : Controllers := if inputs.cfgMulti then .two else .one

/-- act(r): the roles that a configuration makes active (R21, R101). -/
def resolveActive (inputs : Inputs) (params : Params) (r : Role) : Bool :=
  match r with
  | .en2 => decide (controllerCount inputs = .two)
  | .bl => inputs.cfgBlPresent && params.blInRange.holds (resolve inputs params .bl)
  | .en => true
  | .rs => true
  | .d4 => true
  | .d5 => true
  | .d6 => true
  | .d7 => true

/-- The scan of AliasCheck over `roles`, with the ids already seen: the first role whose id is among them (R102). -/
def aliasScan (res : Role → Nat) (seen : List Nat) : List Role → Option Role
  | [] => none
  | r :: rs => if seen.contains (res r) then some r else aliasScan res (res r :: seen) rs

/-- AliasCheck(act, res): the role that BindingAlias reports, if any (R102). -/
def aliasCheck (act : Role → Bool) (res : Role → Nat) : Option Role := aliasScan res [] (acqOrder.filter act)

end Machine

end Sys2Proof
end

