-- ==== Sys2Proof/Machine/Flags.lean ====
section
/-! DEFINITION. Fault codes (spec/60_exceptions.md R113), the response byte (spec/30_encoding.md R70) and the HOOKS flags
(spec/10_state.md R29). -/

namespace Sys2Proof.Machine

/-- The faults a command can raise (R113). -/
inductive FaultCode where
  | pinUnavailable | allocationFailure | writeFailure | illegalCommand
  | illegalPhase | targetUnavailable | bindingAlias | pinNotAcquired
  deriving DecidableEq, Repr

/-- The 4-bit code of a fault (R113). -/
def FaultCode.code : FaultCode → BitVec 4
  | .pinUnavailable => 0x1
  | .allocationFailure => 0x2
  | .writeFailure => 0x3
  | .illegalCommand => 0x4
  | .illegalPhase => 0x5
  | .targetUnavailable => 0x6
  | .bindingAlias => 0x7
  | .pinNotAcquired => 0x8

/-- RESP of a command that did not fault (R27, R70). -/
def respOk : Byte := 0x00

/-- RESP of a command that faulted: F = 1, bits 6:4 zero, then the code (R70). -/
def respFault (c : FaultCode) : Byte := (0b1000 : BitVec 4) ++ c.code

/-- HOOKS after START: bit 0 SEND, bit 1 BL when its role is active (R29, R107). -/
def hooksOf (blActive : Bool) : BitVec 2 := BitVec.ofBool blActive ++ BitVec.ofBool true

end Sys2Proof.Machine
end

