-- ==== Sys2Proof/Machine/Ops.lean ====
section
/-! DEFINITION. The shared operations: draws and time, TRACE, the controller observer, the end of a command, the fault
procedure (taking an exception), the primitives, and dispatch. -/

namespace Sys2Proof.Machine

/-- The draw of the k-th step from now (R10): from the script, or a free value. -/
def State.drawAt (s : State) (k : Nat) : Draw :=
  match s.script[k]? with
  | some d => d
  | none => Config.freeDraw (s.drawIx + k)

/-- The draw of this step. -/
def State.draw (s : State) : Draw := s.drawAt 0

/-- The passing of one step: NOW advances by the drawn duration, and the draw is used up (R31, R56). -/
def elapse (d : Draw) (s : State) : State :=
  { s with now := s.now + d.dur, script := s.script.tail, drawIx := s.drawIx + 1 }

/-- Sleep(b)'s lower bound: DUR is b plus the drawn excess that `elapse` adds (R56, R84). -/
def sleepBound (b : Nat) (s : State) : State := { s with now := s.now + b }

/-- Emit(w) (R12, R30). -/
def emit (w : Word16) (s : State) : State := { s with trace := s.trace ++ [(w, s.now)] }

/-- PIN[r] <- p. -/
def setPin (r : Role) (p : Pin) (s : State) : State := { s with pin := s.pin.set r p }

/-- PIN[r].lvl <- l. -/
def setLvl (r : Role) (l : Option Bool) (s : State) : State := setPin r { s.pin.get r with lvl := l } s

/-! ### The controller latch observer (spec/20_memory.md R58) -/

/-- What an enable line's step looks like to its controller (R52, R58). -/
inductive Edge where
  | none | falling | undefined
  deriving DecidableEq, Repr

/-- The edge of a value write: the old level, the level written, and whether the OS write succeeded (R58). -/
def writeEdge (old : Option Bool) (b ok : Bool) : Edge :=
  match ok, b, old with
  | true, false, some true => .falling
  | true, false, .none => .undefined
  | true, false, some false => .none
  | true, true, _ => .none
  | false, _, some false => .none
  | false, _, some true => .undefined
  | false, _, .none => .undefined

/-- The edge of a UREL of an acquired pin (R58). -/
def releaseEdge (old : Option Bool) : Edge :=
  match old with
  | some false => .none
  | some true => .undefined
  | .none => .undefined

/-- A record of drawn contents, LATCH_ANY (R58). -/
def drawnRecord (d : Draw) (s : State) : LatchRec where
  rs  := d.latchRs
  nib := d.latchNib
  t   := s.now

/-- The record a controller captures at a falling edge: the levels of RS and D7 to D4, or drawn contents when one of them
is undefined (R58). -/
def sampledRecord (d : Draw) (s : State) : LatchRec :=
  match s.pin.rs.lvl, s.pin.d7.lvl, s.pin.d6.lvl, s.pin.d5.lvl, s.pin.d4.lvl with
  | some rs, some b7, some b6, some b5, some b4 => { rs := rs, nib := nibbleOfLines b7 b6 b5 b4, t := s.now }
  | _, _, _, _, _ => drawnRecord d s

/-- LATCH[k] <- LATCH[k] ++ [rec], for the controller k of an enable role (R58); other roles have no controller. -/
def appendLatch (r : Role) (rec : LatchRec) (s : State) : State :=
  match r with
  | .en => { s with latch1 := s.latch1 ++ [rec] }
  | .en2 => { s with latch2 := s.latch2 ++ [rec] }
  | .rs => s
  | .d4 => s
  | .d5 => s
  | .d6 => s
  | .d7 => s
  | .bl => s

/-- The observer at a step on role r (R58). -/
def observe (r : Role) (e : Edge) (d : Draw) (s : State) : State :=
  match e with
  | .none => s
  | .falling => appendLatch r (sampledRecord d s) s
  | .undefined => if d.latches then appendLatch r (drawnRecord d s) s else s

/-! ### The end of a command and the fault procedure -/

/-- End(r) (R67). -/
def endCommand (r : Byte) (s : State) : State :=
  { s with resp := r, busy := false, cur := none, upc := 0, plan := [], stage := 0, fin := .done }

/-- The FAULT record after a fault: the first fault of the instance stays (R26, R116, R120). -/
def recordFault (c : FaultCode) (role : Option Role) (id : Option Nat) (s : State) : FaultRec :=
  if s.fault.valid then s.fault
  else { valid := true, code := c.code, role := role, id := id, cmd := s.cur.getD 0x0000 }

/-- `raise Fault(code, role, id)`: the fault procedure (R116). It is how LCDSEQ takes an exception: the cause goes to
FAULT unless one is recorded, the phase becomes Failed unless it is Released, and the command ends with RESP 0x80 | code.
There is no handler and no return (R119). -/
def raise (c : FaultCode) (role : Option Role) (id : Option Nat) (s : State) : State :=
  endCommand (respFault c)
    { s with
      fault := recordFault c role id s
      phase := if s.phase = .released then .released else .failed }

/-- The closing lines of CLOSE: free the binding record, PHASE <- Released (R110). -/
def freeBinding (s : State) : State :=
  { s with
    cfgNc := none, cfgBlp := none, active := every false, bind := every none, hooks := 0b00, phase := .released }

/-- What a command does after its last primitive (R89, R95, R103, R104, R105, R110). -/
def finish (f : Finish) (s : State) : State :=
  match f with
  | .done => endCommand respOk s
  | .acquired => endCommand respOk { s with phase := .pinsAcquired }
  | .unavailable r => raise .pinUnavailable (some r) (s.bind.get r) s
  | .broughtUp => endCommand respOk { s with phase := .controllerBroughtUp }
  | .closed => endCommand respOk (freeBinding s)

/-! ### The position inside a command (R13, R16, R33) -/

/-- One primitive step is over and `plan` is what remains: go on with it, or finish in this same step. -/
def continueWith (plan : List Prim) (fin : Finish) (s : State) : State :=
  match plan with
  | [] => finish fin s
  | p :: ps => { s with plan := p :: ps, fin := fin, stage := 0, upc := s.upc + 1 }

/-- The current primitive is finished. -/
def advance (s : State) : State := continueWith s.plan.tail s.fin s

/-- The current primitive goes on with its next OS request. -/
def nextStage (s : State) : State := { s with stage := s.stage + 1, upc := s.upc + 1 }

/-! ### The primitives (spec/40_pin_manager.md) -/

/-- Acquire(r) returned false to ACQALL: unwind if P_UNWIND, then raise PinUnavailable (R81, R103, R104). -/
def acquireFailed (r : Role) (s : State) : State :=
  continueWith (unwindSeq s.params s.active r) (.unavailable r) s

/-- PIN[r] after a successful Acquire (R81). -/
def Pin.acquired : Pin where
  acq := true
  dir := .output
  hnd := true
  lvl := some false

/-- One step of Acquire(r): OsExport, then OsSetDir(OutLow), then OsOpenValue (R81). -/
def acquireStep (r : Role) (d : Draw) (s : State) : State :=
  match s.stage with
  | 0 =>
    let s1 := emit (encode (.uacq r)) s
    if d.exportOk then nextStage s1 else acquireFailed r s1
  | 1 => if d.dirOk then nextStage s else acquireFailed r s
  | _ => if d.openOk then advance (setPin r Pin.acquired s) else acquireFailed r s

/-- Write(r, b) (R82). -/
def writeStep (r : Role) (b : Bool) (d : Draw) (s : State) : State :=
  if (s.pin.get r).acq then
    let s1 := observe r (writeEdge (s.pin.get r).lvl b d.writeOk) d (emit (encode (.uwr r b)) s)
    if d.writeOk then advance (setLvl r (some b) s1)
    else raise .writeFailure (some r) (s.bind.get r) (setLvl r none s1)
  else raise .pinNotAcquired (some r) (s.bind.get r) s

/-- One step of Release(r): OsSetDir(In), then OsCloseValue, then OsUnexport; the single step of a pin that is not
acquired makes no OS request (R83). The results of the requests are ignored. -/
def releaseStep (r : Role) (d : Draw) (s : State) : State :=
  match s.stage with
  | 0 =>
    let s1 := emit (encode (.urel r)) s
    if (s.pin.get r).acq then nextStage (observe r (releaseEdge (s.pin.get r).lvl) d s1) else advance s1
  | 1 => nextStage s
  | _ => advance (setPin r Pin.idle s)

/-- Delay(cls) (R84). -/
def delayStep (c : DelayClass) (s : State) : State :=
  advance (sleepBound (delayBound s.params c) (emit (encode (.udly c.code)) s))

/-- The step of the current primitive. -/
def primStep (p : Prim) (d : Draw) (s : State) : State :=
  match p with
  | .acq r => acquireStep r d s
  | .wr r b => writeStep r b d s
  | .rel r => releaseStep r d s
  | .dly c => delayStep c s

/-! ### Dispatch (R67) -/

/-- BUSY <- 1; CUR <- some w; UPC <- 0 (R67). -/
def accepted (w : Word16) (s : State) : State := { s with busy := true, cur := some w, upc := 0 }

/-- The first primitive of a command runs in the acceptance step; a command without primitives is that one step
(R13, R67). -/
def begin (plan : List Prim) (fin : Finish) (d : Draw) (s : State) : State :=
  match plan with
  | [] => finish fin s
  | p :: ps => primStep p d { s with plan := p :: ps, fin := fin, stage := 0 }

/-- One sequencer step: its effect under this step's draw, then the passing of time (R56). -/
def stepOf (f : Draw → State → State) (s : State) : Host.Outcome State Fault Refusal :=
  .next (elapse s.draw (f s.draw s))

/-- Exec(w) for a word that decodes to the command i, whose own rule is `rule` (R67). The host has no move while BUSY = 1
(R66 (b)). -/
def accept (i : Instr) (rule : Draw → State → State) (s : State) : Host.Outcome State Fault Refusal :=
  if s.busy then .refused .portBusy
  else
    stepOf (fun d s =>
      let s1 := accepted (encode i) s
      if legal i s.phase then rule d s1 else raise .illegalPhase none none s1) s

end Sys2Proof.Machine
end

