-- ==== Sys2Proof/Machine/Lifecycle.lean ====
section
/-! DEFINITION. The meanings of BIND, ACQALL, BRINGUP, START and CLOSE (spec/42_lifecycle.md). -/

namespace Sys2Proof.Machine

/-- BIND's writes when no fault is raised (R20, R21, R22, R101). -/
def bindAll (s : State) : State :=
  let act := resolveActive s.inputs s.params
  { s with
    cfgNc := some (controllerCount s.inputs)
    cfgBlp := some s.inputs.cfgBlPresent
    active := PerRole.ofFn act
    bind := PerRole.ofFn (fun r => if act r then some (resolve s.inputs s.params r) else none)
    phase := .pinsBound }

/-- The rule of BIND: AllocationFailure, then BindingAlias, then the binding (R101, R102, R117). -/
def bindRule (d : Draw) (s : State) : State :=
  if d.allocOk then
    match aliasCheck (resolveActive s.inputs s.params) (resolve s.inputs s.params) with
    | some r => raise .bindingAlias (some r) (some (resolve s.inputs s.params r)) s
    | none => endCommand respOk (bindAll s)
  else raise .allocationFailure none none s

/-- BIND (R101). -/
def execBind (s : State) : Host.Outcome State Fault Refusal := accept .bind bindRule s

/-- The rule of ACQALL: Acquire every active role in ACQ_ORDER (R103). -/
def acqallRule (d : Draw) (s : State) : State := begin (acquireSeq s.active) .acquired d s

/-- ACQALL (R103). -/
def execAcqall (s : State) : Host.Outcome State Fault Refusal := accept .acqall acqallRule s

/-- The rule of BRINGUP (R105). `enables` is never `none` here: P_BRINGUP_TARGET is All or First. -/
def bringupRule (d : Draw) (s : State) : State :=
  match enables s.params.bringupTarget.target s.cfgNc with
  | none => raise .targetUnavailable none none s
  | some es => begin (bringupSeq es s.params.funcset4) .broughtUp d s

/-- BRINGUP (R105). -/
def execBringup (s : State) : Host.Outcome State Fault Refusal := accept .bringup bringupRule s

/-- The rule of START (R107). -/
def startRule (s : State) : State :=
  endCommand respOk { s with hooks := hooksOf s.active.bl, phase := .operational }

/-- START (R107). -/
def execStart (s : State) : Host.Outcome State Fault Refusal := accept .start (fun _ => startRule) s

/-- The rule of CLOSE: nothing in Released, else release every active role in REL_ORDER and free the binding (R110). -/
def closeRule (d : Draw) (s : State) : State :=
  if s.phase = .released then endCommand respOk s
  else begin (releaseSeq s.active) .closed d s

/-- CLOSE (R110). -/
def execClose (s : State) : Host.Outcome State Fault Refusal := accept .close closeRule s

end Sys2Proof.Machine
end

