-- ==== Sys2Proof/Machine/PinManager.lean ====
section
/-! DEFINITION. The meanings of the trace words: the Pin Lifecycle Manager primitives (spec/40_pin_manager.md). Each runs one
step of the call that the word names, inside the running command. -/

namespace Sys2Proof.Machine

/-- UACQ: Acquire(r) (R81). -/
def execUacq (role : Role) (s : State) : Host.Outcome State Fault Refusal := stepOf (acquireStep role) s

/-- UWR: Write(r, b) (R82). -/
def execUwr (role : Role) (lvl : Bool) (s : State) : Host.Outcome State Fault Refusal := stepOf (writeStep role lvl) s

/-- UREL: Release(r) (R83). -/
def execUrel (role : Role) (s : State) : Host.Outcome State Fault Refusal := stepOf (releaseStep role) s

/-- UDLY: Delay(cls) (R84). A reserved class (R77) is no delay. -/
def execUdly (cls : Byte) (s : State) : Host.Outcome State Fault Refusal :=
  match DelayClass.ofCode cls with
  | some c => stepOf (fun _ => delayStep c) s
  | none => .refused .reservedDelayClass

end Sys2Proof.Machine
end

