-- ==== Sys2Proof/Machine/Transmission.lean ====
section
/-! DEFINITION. The meanings of SEND and BL: the Nibble Transmission Engine (spec/41_transmission.md). -/

namespace Sys2Proof.Machine

/-- The rule of SEND: TargetUnavailable before any write, or SendSeq (R89, R90, R91). -/
def sendRule (tgt : Target) (mode : Mode) (value : Byte) (d : Draw) (s : State) : State :=
  match enables tgt s.cfgNc with
  | none => raise .targetUnavailable none none s
  | some es => begin (sendSeq es mode value) .done d s

/-- SEND: SendByte(targetDisplay, mode, value) (R89). -/
def execSend (tgt : Target) (mode : Mode) (value : Byte) (s : State) : Host.Outcome State Fault Refusal :=
  accept (.send tgt mode value) (sendRule tgt mode value) s

/-- The rule of BL: one write when the role is active, else nothing (R95). -/
def blRule (state : Bool) (d : Draw) (s : State) : State :=
  begin (if s.active.bl then [.wr .bl state] else []) .done d s

/-- BL: SetBacklight(state) (R95). -/
def execBl (state : Bool) (s : State) : Host.Outcome State Fault Refusal := accept (.bl state) (blRule state) s

end Sys2Proof.Machine
end

