-- ==== Sys2Proof/Machine/Dispatch.lean ====
section
/-! DEFINITION. One arm per instruction. -/

namespace Sys2Proof.Machine

def exec (i : Instr) (s : State) : Host.Outcome State Fault Refusal :=
  match i with
  | .bind => Sys2Proof.Machine.execBind s
  | .acqall => Sys2Proof.Machine.execAcqall s
  | .bringup => Sys2Proof.Machine.execBringup s
  | .start => Sys2Proof.Machine.execStart s
  | .send tgt mode value => Sys2Proof.Machine.execSend tgt mode value s
  | .bl state => Sys2Proof.Machine.execBl state s
  | .close => Sys2Proof.Machine.execClose s
  | .uacq role => Sys2Proof.Machine.execUacq role s
  | .uwr role lvl => Sys2Proof.Machine.execUwr role lvl s
  | .urel role => Sys2Proof.Machine.execUrel role s
  | .udly cls => Sys2Proof.Machine.execUdly cls s

end Sys2Proof.Machine
end

