-- ==== Sys2Proof/Machine/Agents.lean ====
section
/-! DEFINITION. The moves of the agents (spec/00_scope.md R5): the host's while the block is idle, the sequencer's while a
command runs; and where the next instruction is fetched. -/

namespace Sys2Proof.Machine

/-- Who moves next (R5, R66): the sequencer while BUSY = 1, the host otherwise. The OS, the clock and the controllers have
no move of their own: they answer inside a step, through its draw. -/
def State.mover (s : State) : Agent := if s.busy then .sequencer else .host

/-- Exec(w) for an Illegal word: raise IllegalCommand, whatever the phase (R67, R69, R117). -/
def execIllegal (w : Word16) (s : State) : Host.Outcome State Fault Refusal :=
  if s.busy then .refused .portBusy
  else stepOf (fun _ s => raise .illegalCommand none none (accepted w s)) s

/-- The host presents the word w on the command port (R66, R67). -/
def present (w : Word16) (s : State) : Host.Outcome State Fault Refusal :=
  match decodePort w with
  | .ok i => exec i s
  | .error _ => execIllegal w s

/-- A host idle interval: only NOW advances (R56, R127). -/
def hostIdle (s : State) : Host.Outcome State Fault Refusal := stepOf (fun _ s => s) s

/-- The host's move (R66): its next command word, or idling; a host with nothing to do idles. -/
def hostMove (s : State) : Host.Outcome State Fault Refusal :=
  match s.host with
  | .issue w :: rest => present w { s with host := rest }
  | .idle :: rest => hostIdle { s with host := rest }
  | [] => hostIdle s

/-- The sequencer's move: one step of the current primitive (R5, R13). -/
def sequencerMove (s : State) : Host.Outcome State Fault Refusal :=
  match s.plan with
  | p :: _ => exec p.toInstr s
  | [] => .fault .noPrimitive

/-- One step of the agent whose turn it is; PHASE 0b111 is refused (R18). -/
def agentStep (s : State) : Host.Outcome State Fault Refusal :=
  if s.phase = .reserved then .refused .reservedPhase
  else if s.busy then sequencerMove s
  else hostMove s

/-- The primitive that a trace word's instruction names. -/
def primOf : Instr → Option Prim
  | .uacq r => some (.acq r)
  | .uwr r b => some (.wr r b)
  | .urel r => some (.rel r)
  | .udly cls => (DelayClass.ofCode cls).map .dly
  | .bind => none
  | .acqall => none
  | .bringup => none
  | .start => none
  | .send _ _ _ => none
  | .bl _ => none
  | .close => none

/-- The block idle, with w as the next word the host presents. -/
def placeOnPort (w : Word16) (s : State) : State :=
  { s with busy := false, cur := none, upc := 0, plan := [], stage := 0, fin := .done, host := .issue w :: s.host }

/-- The block in the middle of a command whose one remaining primitive is p; CUR holds the trace word itself. -/
def placeInPlan (w : Word16) (p : Prim) (s : State) : State :=
  { s with busy := true, cur := some w, upc := 0, plan := [p], stage := 0, fin := .done }

/-- The next instruction that a step runs is the one w stands for: a trace word is placed where the sequencer takes its next
primitive, every other word on the command port. -/
def placeWord (w : Word16) (s : State) : State :=
  match decodeTrace w with
  | .ok i =>
    match primOf i with
    | some p => placeInPlan w p s
    | none => placeOnPort w s
  | .error _ => placeOnPort w s

end Sys2Proof.Machine
end

