-- ==== Sys2Proof/Machine/Step.lean ====
section
/-! DEFINITION. One step of the machine, and where its next instruction stands. -/

namespace Sys2Proof.Machine

/-- One step: the host's move or the sequencer's (spec/00_scope.md R5, R13). -/
def step (s : State) : Host.Outcome State Fault Refusal := agentStep s

/-- The state whose next step runs the instruction of the word w of nbits bits. -/
def State.withFetchWord (s : State) (nbits w : Nat) : State := placeWord (BitVec.ofNat 16 (w % 2 ^ nbits)) s

end Sys2Proof.Machine
end

