-- ==== Sys2Proof/Machine/Assembler.lean ====
section
/-! DEFINITION. The assembler syntax of host commands, the disassembly syntax of trace words, and the pseudo-instructions
(spec/30_encoding.md R73, R74). No step of the machine uses this file. -/

namespace Sys2Proof.Assembler

/-- A line of text, as characters. -/
abbrev Text := List Char

/-- The pseudo-instructions (R74). -/
inductive Pseudo where
  | init | cmd (imm8 : Byte) | dat (imm8 : Byte) | shutdown
  deriving DecidableEq, Repr

/-- The commands a pseudo-instruction stands for (R74). -/
def expand : Pseudo → List Instr
  | .init => [.bind, .acqall, .bringup, .start]
  | .cmd v => [.send .all .instruction v]
  | .dat v => [.send .all .data v]
  | .shutdown => [.close]

/-- The names of R73. -/
def targetName : Target → Text
  | .all => ['a', 'l', 'l']
  | .first => ['f', 'i', 'r', 's', 't']
  | .second => ['s', 'e', 'c', 'o', 'n', 'd']

/-- `i` or `d` (R73). -/
def modeName : Mode → Text
  | .instruction => ['i']
  | .data => ['d']

/-- `send.<tgt>.<mode>` (R73). -/
def sendName (tgt : Target) (mode : Mode) : Text := ['s', 'e', 'n', 'd', '.'] ++ targetName tgt ++ ['.'] ++ modeName mode

/-- The role names of R73. -/
def roleName : Role → Text
  | .en => ['e', 'n']
  | .en2 => ['e', 'n', '2']
  | .rs => ['r', 's']
  | .d4 => ['d', '4']
  | .d5 => ['d', '5']
  | .d6 => ['d', '6']
  | .d7 => ['d', '7']
  | .bl => ['b', 'l']

/-- The delay class names of R73; a reserved class has none. -/
def className (c : Byte) : Option Text :=
  match DelayClass.ofCode c with
  | some .t => some ['T']
  | some .pb1 => some ['P', 'B', '1']
  | some .pb2 => some ['P', 'B', '2']
  | some .pb3 => some ['P', 'B', '3']
  | none => none

/-- A hexadecimal digit. -/
def hexDigit (n : Nat) : Char := Char.ofNat (if n < 10 then 48 + n else 87 + n)

/-- An `imm8` as `0x` and two digits (R73). -/
def hexText (v : Byte) : Text := ['0', 'x', hexDigit (v.toNat / 16), hexDigit (v.toNat % 16)]

/-- The text of an instruction (R73); none for a UDLY of a reserved class. -/
def print (i : Instr) : Option Text :=
  match i with
  | .bind => some ['b', 'i', 'n', 'd']
  | .acqall => some ['a', 'c', 'q', 'a', 'l', 'l']
  | .bringup => some ['b', 'r', 'i', 'n', 'g', 'u', 'p']
  | .start => some ['s', 't', 'a', 'r', 't']
  | .send tgt mode v =>
    some (sendName tgt mode ++ [' '] ++ hexText v)
  | .bl state => some (['b', 'l', ' ', 'o'] ++ (if state then ['n'] else ['f', 'f']))
  | .close => some ['c', 'l', 'o', 's', 'e']
  | .uacq r => some (['u', 'a', 'c', 'q', ' '] ++ roleName r)
  | .uwr r b => some (['u', 'w', 'r', ' '] ++ roleName r ++ [',', ' ', if b then '1' else '0'])
  | .urel r => some (['u', 'r', 'e', 'l', ' '] ++ roleName r)
  | .udly c => (className c).map (['u', 'd', 'l', 'y', ' '] ++ ·)

/-- The value of a digit in a base up to 16. -/
def digitValue (base : Nat) (c : Char) : Option Nat :=
  let n := c.toNat
  let v := if 48 ≤ n ∧ n ≤ 57 then n - 48 else if 97 ≤ n ∧ n ≤ 102 then n - 87 else if 65 ≤ n ∧ n ≤ 70 then n - 55 else 16
  if v < base then some v else none

/-- The number that digits write, most significant first. -/
def digitsValue (base : Nat) (acc : Nat) : Text → Option Nat
  | [] => some acc
  | c :: cs =>
    match digitValue base c with
    | some v => digitsValue base (acc * base + v) cs
    | none => none

/-- A non-empty number in a base, from 0 to 255. -/
def byteOf (base : Nat) (cs : Text) : Option Byte :=
  if cs.isEmpty then none
  else
    match digitsValue base 0 cs with
    | some n => if n < 256 then some (BitVec.ofNat 8 n) else none
    | none => none

/-- An `imm8`: decimal, `0x` hexadecimal or `0b` binary, from 0 to 255 (R73). Leading zeros and hexadecimal digits of either
case are taken; a sign, an upper-case prefix, a prefix without digits and a larger number are refused (the model's choice,
notes/assumptions/16.md). -/
def parseImm8 (cs : Text) : Option Byte :=
  match cs with
  | '0' :: 'x' :: ds => byteOf 16 ds
  | '0' :: 'b' :: ds => byteOf 2 ds
  | ds => byteOf 10 ds

/-- The pieces of a text between the characters that `sep` picks, empty pieces left out: blanks may be doubled, and may lead
or trail a line (the model's choice, notes/assumptions/16.md). -/
def pieces (sep : Char → Bool) (acc : Text) : Text → List Text
  | [] => if acc.isEmpty then [] else [acc.reverse]
  | c :: cs =>
    if sep c then (if acc.isEmpty then pieces sep [] cs else acc.reverse :: pieces sep [] cs)
    else pieces sep (c :: acc) cs

/-- The target and mode that a SEND mnemonic names: one of the six texts of R73, letter for letter. Every other text, one
with a doubled, leading or trailing dot among them, names none; that it is refused is the model's choice
(notes/assumptions/16.md). -/
def parseSendName (t : Text) : Option (Target × Mode) :=
  [(.all, .instruction), (.all, .data), (.first, .instruction), (.first, .data), (.second, .instruction),
    (.second, .data)].find? (fun p => sendName p.1 p.2 = t)

/-- A line of one word: a plain command, or the pseudo-instructions `init` and `shutdown` (R73, R74). -/
def parseBare (t : Text) : Option (List Instr) :=
  if t = ['b', 'i', 'n', 'd'] then some [.bind]
  else if t = ['a', 'c', 'q', 'a', 'l', 'l'] then some [.acqall]
  else if t = ['b', 'r', 'i', 'n', 'g', 'u', 'p'] then some [.bringup]
  else if t = ['s', 't', 'a', 'r', 't'] then some [.start]
  else if t = ['c', 'l', 'o', 's', 'e'] then some [.close]
  else if t = ['i', 'n', 'i', 't'] then some (expand .init)
  else if t = ['s', 'h', 'u', 't', 'd', 'o', 'w', 'n'] then some (expand .shutdown)
  else none

/-- A line of a name and one operand: `send.<tgt>.<mode>`, `bl`, `cmd` or `dat` (R73, R74). -/
def parseOperand (t a : Text) : Option (List Instr) :=
  if t = ['b', 'l'] then
    if a = ['o', 'n'] then some [.bl true] else if a = ['o', 'f', 'f'] then some [.bl false] else none
  else if t = ['c', 'm', 'd'] then (parseImm8 a).map (fun v => expand (.cmd v))
  else if t = ['d', 'a', 't'] then (parseImm8 a).map (fun v => expand (.dat v))
  else
    match parseSendName t, parseImm8 a with
    | some (tgt, mode), some v => some [.send tgt mode v]
    | _, _ => none

/-- The host commands of one line: a comment starts with `;` (R73), wherever it stands in the line. A line with nothing
before its comment holds no command, and a line that is no form of R73 or R74 is refused (the model's choice,
notes/assumptions/16.md). -/
def parseLine (line : Text) : Option (List Instr) :=
  match pieces (· == ' ') [] (line.takeWhile (· != ';')) with
  | [] => some []
  | [t] => parseBare t
  | [t, a] => parseOperand t a
  | _ => none

/-- The words of one line (R73). -/
def assembleLine (line : Text) : Option (List Word16) := (parseLine line).map (·.map encode)

end Sys2Proof.Assembler
end

