-- ==== Sys2Proof/Safety.lean ====
section
/-! DEFINITION. What claims speak of: runs and reachable states, the observers of the trace, the host's view, well-timed
latches, clean runs, and the invariant of LCDSEQ. -/

namespace Sys2Proof.Machine

/-! ### Runs -/

/-- The outcome of k steps, stopping at the first fault or refusal. -/
def run : Nat → State → Host.Outcome State Fault Refusal
  | 0, s => .next s
  | k + 1, s =>
    match step s with
    | .next t => run k t
    | .fault r => .fault r
    | .refused r => .refused r

/-- An instance right after reset (R129), with any parameters, any configuration inputs, any host and any draws
(R8, R9, R10). -/
def instanceOf (params : Params) (inputs : Inputs) (host : List HostMove) (script : List Draw) (drawIx : Nat) : State :=
  { State.reset with params := params, inputs := inputs, host := host, script := script, drawIx := drawIx }

/-- The states that some run of some instance reaches. -/
inductive Reachable : State → Prop where
  | reset (params : Params) (inputs : Inputs) (host : List HostMove) (script : List Draw) (drawIx : Nat) :
      Reachable (instanceOf params inputs host script drawIx)
  | step {s t : State} : Reachable s → step s = .next t → Reachable t

/-- The next n steps' OS value writes all succeed (R10). -/
def WritesSucceed (n : Nat) (s : State) : Prop := ∀ k, k < n → (s.drawAt k).writeOk = true

/-- Every OS request of the next n steps succeeds, and so does the allocation (R10). -/
def RequestsSucceed (n : Nat) (s : State) : Prop :=
  ∀ k, k < n → (s.drawAt k).allocOk = true ∧ (s.drawAt k).exportOk = true ∧ (s.drawAt k).dirOk = true ∧
    (s.drawAt k).openOk = true ∧ (s.drawAt k).writeOk = true

/-! ### Observers of TRACE (spec/40_pin_manager.md R88) -/

/-- A UWR word (R64). -/
def isWriteWord (w : Word16) : Bool := fieldOp w = 0x9

/-- A UDLY word (R64). -/
def isDelayWord (w : Word16) : Bool := fieldOp w = 0xB

/-- What the write primitive's test double observes (R88). -/
def writesSeen (trace : List (Word16 × Nat)) : List Word16 := (trace.map Prod.fst).filter isWriteWord

/-- What the delay primitive's test double observes (R88). -/
def delaysSeen (trace : List (Word16 × Nat)) : List Word16 := (trace.map Prod.fst).filter isDelayWord

/-- The trace words of a sequence of primitives. -/
def wordsOf (ps : List Prim) : List Word16 := ps.map (fun p => encode p.toInstr)

/-- The (rs, nib) pairs of a list of latch records. -/
def contents (l : List LatchRec) : List (Bool × Nibble) := l.map (fun r => (r.rs, r.nib))

/-! ### The host's view (spec/10_state.md R34, spec/30_encoding.md R66) -/

/-- What the host reads: BUSY, and RESP while BUSY = 0. -/
structure HostView where
  busy : Bool
  resp : Option Byte
  deriving DecidableEq, Repr

/-- The host's view of a state. -/
def hostView (s : State) : HostView where
  busy := s.busy
  resp := if s.busy then none else some s.resp

/-! ### The end of a run, and clean runs (spec/70_reset_and_hazards.md R144) -/

/-- The host has issued its last command: only idle intervals are left (R144). -/
def hostDone : List HostMove → Bool
  | [] => true
  | .issue _ :: _ => false
  | .idle :: moves => hostDone moves

/-- A run is over in s: the host has issued its last command, and BUSY = 0 (R144). -/
def RunOver (s : State) : Prop := hostDone s.host = true ∧ s.busy = false

/-- The run from s ends in t after n steps: t is the first state in which it is over (R144). -/
structure RunEnds (s : State) (n : Nat) (t : State) : Prop where
  reached : run n s = .next t
  ended   : RunOver t
  first   : ∀ k, k < n → ∀ u, run k s = .next u → ¬RunOver u

/-- A clean run: at its end FAULT.valid = 0 (R144). -/
structure CleanRun (s : State) (n : Nat) (t : State) : Prop where
  ends    : RunEnds s n t
  noFault : t.fault.valid = false

/-! ### Well-timed latches (spec/20_memory.md R59) -/

/-- The words by which R59 finds `ts`: a UWR of RS or of a data line. -/
def isSetupWord (w : Word16) : Bool :=
  match decodeTrace w with
  | .ok (.uwr .rs _) => true
  | .ok (.uwr .d4 _) => true
  | .ok (.uwr .d5 _) => true
  | .ok (.uwr .d6 _) => true
  | .ok (.uwr .d7 _) => true
  | _ => false

/-- The words by which R59 finds `th`: a UWR or UREL of RS or of a data line. -/
def isHoldEndWord (w : Word16) : Bool :=
  match decodeTrace w with
  | .ok (.urel .rs) => true
  | .ok (.urel .d4) => true
  | .ok (.urel .d5) => true
  | .ok (.urel .d6) => true
  | .ok (.urel .d7) => true
  | _ => isSetupWord w

/-- In a trace read backwards, the stamp of the nearest word that `p` picks, and what lies before it. -/
def nearest (p : Word16 → Bool) : List (Word16 × Nat) → Option (Nat × List (Word16 × Nat))
  | [] => none
  | x :: xs => if p x.1 then some (x.2, xs) else nearest p xs

/-- Well-timed(T) for the falling-edge word of enable e at index i of a trace (R59). R59 speaks of "a latch record with
falling-edge stamp"; that only a UWR(e, 0) word carries such a stamp, so that a record drawn at the undefined edge of a UREL(e)
or of a failed UWR(e, 1) is never well-timed, and that a word with no rise or no setup word before it is not, is the model's
choice (notes/assumptions/17.md). -/
def wellTimedAt (T : Nat) (e : Role) (words : List (Word16 × Nat)) (i : Nat) : Bool :=
  match words[i]? with
  | none => false
  | some (w, tf) =>
    w = encode (.uwr e false) &&
      match nearest (· = encode (.uwr e true)) (words.take i).reverse with
      | none => false
      | some (tr, before) =>
        match nearest isSetupWord before with
        | none => false
        | some (ts, _) =>
          decide (ts + T ≤ tr) && decide (tr + T ≤ tf) &&
            match nearest isHoldEndWord (words.drop (i + 1)) with
            | none => true
            | some (th, _) => decide (tf + T ≤ th)

/-- R93 for the part of a trace from index `from_` on: every falling-edge word of e in it is well-timed(T), and stays so
whatever is stamped at `now` or later after it. -/
def FallsWellTimed (T : Nat) (e : Role) (from_ now : Nat) (words : List (Word16 × Nat)) : Prop :=
  ∀ i, from_ ≤ i → (words[i]?).map Prod.fst = some (encode (.uwr e false)) →
    ∀ later : List (Word16 × Nat), (∀ x ∈ later, now ≤ x.2) → wellTimedAt T e (words ++ later) i = true

/-- The stamps of the falling-edge words of e from index `from_` on. -/
def fallStamps (e : Role) (from_ : Nat) (words : List (Word16 × Nat)) : List Nat :=
  ((words.drop from_).filter (fun x => x.1 = encode (.uwr e false))).map Prod.snd

/-! ### Illegal words (spec/30_encoding.md R69), by arithmetic on the word as a number -/

/-- R69 (a) to (e): the words that are illegal on the command port. -/
def isIllegalWord (n : Nat) : Bool :=
  let op := n / 4096
  decide (op = 0 ∨ 12 ≤ op) ||
  decide (8 ≤ op ∧ op ≤ 11) ||
  (decide (op = 1 ∨ op = 2 ∨ op = 3 ∨ op = 4 ∨ op = 7) && decide (n % 4096 ≠ 0)) ||
  (decide (op = 5) && (decide (n / 1024 % 4 = 3) || decide (n / 512 % 2 = 1))) ||
  (decide (op = 6) && decide (n % 4096 / 2 ≠ 0))

/-- R69, R77: the words with a trace opcode that are no trace words: w[11] = 1, a nonzero constant field, or `cls` 4 to 255. -/
def isReservedTraceWord (n : Nat) : Bool :=
  let op := n / 4096
  (decide (8 ≤ op ∧ op ≤ 11) && decide (n / 2048 % 2 = 1)) ||
  (decide (op = 8 ∨ op = 10) && decide (n % 256 ≠ 0)) ||
  (decide (op = 9) && decide (n % 256 / 2 ≠ 0)) ||
  (decide (op = 11) && decide (n % 4096 ≥ 4))

/-! ### Parts of the state that claims compare -/

/-- The binding record: CFG_NC, CFG_BLP, ACTIVE, BIND (R39). -/
def SameBinding (s t : State) : Prop :=
  t.cfgNc = s.cfgNc ∧ t.cfgBlp = s.cfgBlp ∧ t.active = s.active ∧ t.bind = s.bind

/-- What the controllers hold: LATCH[1], LATCH[2]. -/
def SameLatches (s t : State) : Prop := t.latch1 = s.latch1 ∧ t.latch2 = s.latch2

/-- The model's arguments and the host's later moves. -/
def SameWorld (s t : State) : Prop := t.params = s.params ∧ t.inputs = s.inputs ∧ t.host = s.host

/-- What no primitive of a command writes: PHASE, FAULT, HOOKS, the binding record, the model's arguments and the host. -/
def Untouched (s t : State) : Prop :=
  t.phase = s.phase ∧ t.fault = s.fault ∧ t.hooks = s.hooks ∧ SameBinding s t ∧ SameWorld s t

/-- NOW advanced by `bound` and the drawn duration, and one draw used (R31, R56). -/
def TimePassed (bound : Nat) (s t : State) : Prop :=
  t.now = s.now + bound + s.draw.dur ∧ t.script = s.script.tail ∧ t.drawIx = s.drawIx + 1

/-- The block is idle with the given response: BUSY, CUR and UPC at their idle values (R67). -/
def Ended (resp : Byte) (t : State) : Prop :=
  t.busy = false ∧ t.cur = none ∧ t.upc = 0 ∧ t.resp = resp ∧ t.plan = [] ∧ t.stage = 0 ∧ t.fin = .done

/-- A primitive step took s to t and the same command goes on with `plan`, `stage` requests of its first primitive done
(R16, R33). -/
def WentOn (plan : List Prim) (stage : Nat) (s t : State) : Prop :=
  t.busy = s.busy ∧ t.cur = s.cur ∧ t.upc = s.upc + 1 ∧ t.resp = s.resp ∧ t.plan = plan ∧ t.stage = stage ∧
    t.fin = s.fin

/-- The command w was accepted in s, its first primitive step took the block to t, and it goes on with `plan`
(R67). -/
def Started (w : Word16) (plan : List Prim) (stage : Nat) (fin : Finish) (s t : State) : Prop :=
  t.busy = true ∧ t.cur = some w ∧ t.upc = 1 ∧ t.resp = s.resp ∧ t.plan = plan ∧ t.stage = stage ∧ t.fin = fin

/-- The fault procedure's outcome for a command word (R116): FAULT, PHASE and the end of the command. -/
def Faulted (c : FaultCode) (role : Option Role) (id : Option Nat) (w : Word16) (s t : State) : Prop :=
  Ended (respFault c) t ∧
    t.fault = (if s.fault.valid then s.fault else { valid := true, code := c.code, role := role, id := id, cmd := w }) ∧
    t.phase = (if s.phase = .released then .released else .failed)

/-- The data lines and RS. -/
def isDataOrRs : Role → Bool
  | .rs => true
  | .d4 => true
  | .d5 => true
  | .d6 => true
  | .d7 => true
  | .en => false
  | .en2 => false
  | .bl => false

/-- The lines and enables that a transmission over the enables `es` drives are acquired, the enables low, and the block idle
in Operational. -/
def ReadyToSend (es : List Role) (s : State) : Prop :=
  s.busy = false ∧ s.phase = .operational ∧
    s.pin.rs.acq = true ∧ s.pin.d4.acq = true ∧ s.pin.d5.acq = true ∧ s.pin.d6.acq = true ∧ s.pin.d7.acq = true ∧
    ∀ e ∈ es, (s.pin.get e).acq = true ∧ (s.pin.get e).lvl = some false

/-- The levels of D7, D6, D5, D4 as a number, when all four are defined (R46). -/
def dataLines (s : State) : Option Nat :=
  match s.pin.d7.lvl, s.pin.d6.lvl, s.pin.d5.lvl, s.pin.d4.lvl with
  | some b7, some b6, some b5, some b4 => some (8 * b7.toNat + 4 * b6.toNat + 2 * b5.toNat + b4.toNat)
  | _, _, _, _ => none

/-- A pin's record but for its level. -/
def SameHold (p q : Pin) : Prop := q.acq = p.acq ∧ q.dir = p.dir ∧ q.hnd = p.hnd

/-- The latch list of the controller on an enable role (R58). -/
def latchOf (e : Role) (s : State) : List LatchRec := if e = .en then s.latch1 else s.latch2

/-- A host command (format C). -/
def isCommand : Instr → Bool
  | .uacq _ => false
  | .uwr _ _ => false
  | .urel _ => false
  | .udly _ => false
  | .bind => true
  | .acqall => true
  | .bringup => true
  | .start => true
  | .send _ _ _ => true
  | .bl _ => true
  | .close => true

/-- The command that a step from s runs: CUR while BUSY = 1, the presented word otherwise. -/
def stepCommand (s : State) : Option Instr :=
  let w :=
    if s.busy then s.cur
    else
      match s.host with
      | .issue w :: _ => some w
      | .idle :: _ => none
      | [] => none
  match w with
  | none => none
  | some w =>
    match decodePort w with
    | .ok i => some i
    | .error _ => none

/-- R19's table: may the command (none for an Illegal word) take the phase from p to q? A fault takes every phase but Released
to Failed; START in its own phase and CLOSE cannot fault. -/
def phaseChange (p : Phase) (i : Option Instr) (q : Phase) : Bool :=
  match i with
  | some .bind => (p = .unconfigured && q = .pinsBound) || (p ≠ .released && q = .failed)
  | some .acqall => (p = .pinsBound && q = .pinsAcquired) || (p ≠ .released && q = .failed)
  | some .bringup => (p = .pinsAcquired && q = .controllerBroughtUp) || (p ≠ .released && q = .failed)
  | some .start =>
    (p = .controllerBroughtUp && q = .operational) || (p ≠ .released && p ≠ .controllerBroughtUp && q = .failed)
  | some (.send _ _ _) => p ≠ .released && q = .failed
  | some (.bl _) => p ≠ .released && q = .failed
  | some .close => p ≠ .released && q = .released
  | some (.uacq _) => false
  | some (.uwr _ _) => false
  | some (.urel _) => false
  | some (.udly _) => false
  | none => p ≠ .released && q = .failed

/-! ### The invariant -/

/-- The phases in which every active pin is acquired (R37). -/
def Phase.ready : Phase → Bool
  | .pinsAcquired => true
  | .controllerBroughtUp => true
  | .operational => true
  | .unconfigured => false
  | .pinsBound => false
  | .released => false
  | .failed => false
  | .reserved => false

/-- No binding record exists (R20, R21, R22). -/
def Unbound (s : State) : Prop :=
  s.cfgNc = none ∧ s.cfgBlp = none ∧ s.active = every false ∧ s.bind = every none

/-- A well-formed binding record (R20, R21, R22, R54 (c)). -/
structure BindingRecord (nc : Option Controllers) (blp : Option Bool) (active : PerRole Bool)
    (bind : PerRole (Option Nat)) : Prop where
  known    : nc ≠ none
  light    : blp ≠ none
  required : active.en = true ∧ active.rs = true ∧ active.d4 = true ∧ active.d5 = true ∧ active.d6 = true ∧
    active.d7 = true
  second   : active.en2 = decide (nc = some .two)
  ids      : ∀ r, active.get r = (bind.get r).isSome
  distinct : ∀ r q, r ≠ q → active.get r = true → active.get q = true → bind.get r ≠ bind.get q

/-- A binding record exists and is well-formed. -/
def Bound (s : State) : Prop := BindingRecord s.cfgNc s.cfgBlp s.active s.bind

/-- R25 for one instance. -/
def PinsOk (s : State) : Prop :=
  ∀ r,
    ((s.pin.get r).acq = true →
      (s.pin.get r).dir = .output ∧ (s.pin.get r).hnd = true ∧ s.active.get r = true ∧ s.bind.get r ≠ none) ∧
    ((s.pin.get r).acq = false →
      (s.pin.get r).dir = .input ∧ (s.pin.get r).hnd = false ∧ (s.pin.get r).lvl = none)

/-- The binding record by phase: none before BIND and after CLOSE, a whole one in between, either in Failed. -/
def BindingOk (s : State) : Prop :=
  (s.phase = .unconfigured ∨ s.phase = .released → Unbound s) ∧
  (s.phase = .failed → Unbound s ∨ Bound s) ∧
  (s.phase = .pinsBound ∨ s.phase.ready = true → Bound s)

/-- The FAULT record by phase: a recorded fault means Failed or Released; without one FAULT is at reset (R26, R116). -/
def FaultOk (s : State) : Prop :=
  (s.fault.valid = true → (s.phase = .failed ∨ s.phase = .released) ∧ ∃ c : FaultCode, s.fault.code = c.code) ∧
  (s.fault.valid = false → s.fault = FaultRec.none ∧ s.phase ≠ .failed)

/-- The line is known to be high. -/
def isHigh : Option Bool → Bool
  | some true => true
  | some false => false
  | none => false

/-- A sequence of primitives writes RS and the data lines only while both enables are low, and leaves both low (R92).
`en` and `en2` say which enable is high before it. -/
def enablesSafe (en en2 : Bool) : List Prim → Bool
  | [] => !en && !en2
  | .wr r b :: ps =>
    match r with
    | .en => enablesSafe b en2 ps
    | .en2 => enablesSafe en b ps
    | .rs => !en && !en2 && enablesSafe en en2 ps
    | .d4 => !en && !en2 && enablesSafe en en2 ps
    | .d5 => !en && !en2 && enablesSafe en en2 ps
    | .d6 => !en && !en2 && enablesSafe en en2 ps
    | .d7 => !en && !en2 && enablesSafe en en2 ps
    | .bl => enablesSafe en en2 ps
  | .dly _ :: ps => enablesSafe en en2 ps
  | .acq _ :: _ => false
  | .rel _ :: _ => false

/-- The primitives of a transmission: delays, and writes of active roles. -/
def isTransmission (active : PerRole Bool) : Prim → Bool
  | .wr r _ => active.get r
  | .dly _ => true
  | .acq _ => false
  | .rel _ => false

/-- What is true inside a running command, by what follows its last primitive. -/
def Running (s : State) : Prop :=
  match s.fin with
  | .acquired =>
    s.cur = some (encode .acqall) ∧ s.phase = .pinsBound ∧ s.stage < 3 ∧
      ∃ before after : List Role, acqOrder.filter s.active.get = before ++ after ∧ after ≠ [] ∧
        s.plan = after.map .acq ∧ (∀ r, (s.pin.get r).acq = true ↔ r ∈ before)
  | .unavailable r =>
    s.cur = some (encode .acqall) ∧ s.phase = .pinsBound ∧ s.stage < 3 ∧ s.active.get r = true ∧ s.plan ≠ [] ∧
      (∀ p ∈ s.plan, ∃ q, p = .rel q ∧ s.active.get q = true) ∧
      ∀ q, (s.pin.get q).acq = true → .rel q ∈ s.plan
  | .broughtUp =>
    s.cur = some (encode .bringup) ∧ s.phase = .pinsAcquired ∧ s.stage = 0 ∧ s.plan ≠ [] ∧
      ∀ p ∈ s.plan, isTransmission s.active p = true
  | .done =>
    ((∃ tgt mode v, s.cur = some (encode (.send tgt mode v))) ∨ ∃ b, s.cur = some (encode (.bl b))) ∧
      s.phase = .operational ∧ s.stage = 0 ∧ s.plan ≠ [] ∧ ∀ p ∈ s.plan, isTransmission s.active p = true
  | .closed =>
    s.cur = some (encode .close) ∧ s.phase ≠ .released ∧ s.stage < 3 ∧ s.plan ≠ [] ∧
      (∀ p ∈ s.plan, ∃ q, p = .rel q ∧ s.active.get q = true) ∧
      ∀ q, (s.pin.get q).acq = true → .rel q ∈ s.plan

/-- The invariant of every reachable state. -/
structure Invariant (s : State) : Prop where
  /-- PHASE 0b111 is never held (R18). -/
  phase   : s.phase ≠ .reserved
  /-- A binding record exists between BIND and CLOSE, and is whole (R20, R21, R22, R54 (c)). -/
  binding : BindingOk s
  /-- R25. -/
  pins    : PinsOk s
  /-- No pin is acquired before ACQALL (R40). -/
  free    : s.phase = .pinsBound → s.fin ≠ .acquired → (∀ r, s.fin ≠ .unavailable r) → s.pin = every Pin.idle
  /-- A pin acquired by an ACQALL that has not ended is low (R81). -/
  low     : s.phase = .pinsBound → ∀ r, (s.pin.get r).acq = true → (s.pin.get r).lvl = some false
  /-- R37: every active pin is acquired, with a defined level, except while CLOSE releases them. -/
  ready   : s.phase.ready = true → s.fin ≠ .closed →
    ∀ r, s.active.get r = true → (s.pin.get r).acq = true ∧ (s.pin.get r).lvl ≠ none
  /-- R92: what remains of the command writes RS and data lines only under low enables. -/
  enables : s.phase.ready = true → s.fin ≠ .closed →
    enablesSafe (isHigh s.pin.en.lvl) (isHigh s.pin.en2.lvl) s.plan = true
  /-- BUSY = 0: CUR and UPC are at their idle values (R33, R67). -/
  idle    : s.busy = false → s.cur = none ∧ s.upc = 0 ∧ s.plan = [] ∧ s.stage = 0 ∧ s.fin = .done
  /-- BUSY = 1: the position inside the command. -/
  running : s.busy = true → Running s
  /-- FAULT records the first fault, and is at reset before it (R26, R116). -/
  fault   : FaultOk s
  /-- RESP is 0x00 or 0x80 | code (R70). -/
  resp    : s.resp = 0x00 ∨ ∃ c : FaultCode, s.resp = respFault c
  /-- TRACE holds trace words, with stamps that rise and are not after NOW (R55 (a), R79). -/
  words   : ∀ x ∈ s.trace, (∃ i, decodeTrace x.1 = .ok i) ∧ x.2 ≤ s.now
  stamps  : s.trace.Pairwise (fun a b => a.2 ≤ b.2)

/-- The maximum number of steps of the command a word stands for (spec/42_lifecycle.md R112); an illegal word takes one. -/
def maxSteps (w : Word16) : Nat :=
  match decodePort w with
  | .ok .acqall => 45
  | .ok .bringup => 102
  | .ok (.send _ _ _) => 33
  | .ok .close => 24
  | .ok .bind => 1
  | .ok .start => 1
  | .ok (.bl _) => 1
  | .ok (.uacq _) => 1
  | .ok (.uwr _ _) => 1
  | .ok (.urel _) => 1
  | .ok (.udly _) => 1
  | .error _ => 1

/-! ### What the sequencer never reads -/

/-- The state with its observation state at fixed values: TRACE, NOW, LATCH, HOOKS and RESP (R29, R31, R32, R34). -/
def eraseObservation (s : State) : State :=
  { s with trace := [], now := 0, latch1 := [], latch2 := [], hooks := 0b00, resp := 0x00 }

end Sys2Proof.Machine
end

