-- ==== Sys2Proof/Certificates/Slice0/Obligations.lean ====
section
/-! DEFINITION. The statements about the model, each with the rule of spec/ it formalises. -/

open Sys2Proof Sys2Proof.Machine

/-! ### Encoding -/

/-- spec/30_encoding.md R80: encoders and decoders are inverse on the legal words, for host words and for trace words. -/
def Obligations.EncodersInvertDecoders : Prop :=
  (∀ w i, decodePort w = .ok i → encode i = w) ∧
  (∀ i, isCommand i = true → decodePort (encode i) = .ok i) ∧
  (∀ w i, decodeTrace w = .ok i → encode i = w) ∧
  (∀ i, isCommand i = false → i.wf = true → decodeTrace (encode i) = .ok i)

/-- spec/30_encoding.md R76 (its Decode, without the count): which word is which host command, by arithmetic on the word. -/
def Obligations.PortDecoderMeaning : Prop :=
  ∀ w : Word16,
    (decodePort w = .ok .bind ↔ w.toNat = 0x1000) ∧
    (decodePort w = .ok .acqall ↔ w.toNat = 0x2000) ∧
    (decodePort w = .ok .bringup ↔ w.toNat = 0x3000) ∧
    (decodePort w = .ok .start ↔ w.toNat = 0x4000) ∧
    (decodePort w = .ok .close ↔ w.toNat = 0x7000) ∧
    (∀ tgt mode v, decodePort w = .ok (.send tgt mode v) ↔
      w.toNat = 0x5000 + 1024 * tgt.code.toNat + 256 * mode.code.toNat + v.toNat) ∧
    (∀ b : Bool, decodePort w = .ok (.bl b) ↔ w.toNat = 0x6000 + b.toNat) ∧
    (∀ i, decodePort w = .ok i → isCommand i = true)

/-- spec/30_encoding.md R69: the illegal words, what they raise, the words that are no trace words, and that the sequencer
emits none of these. The last clause is an inference that R69 marks as derived from R81 to R84; that NOW advances at an
illegal word is V-D21 and notes/assumptions/8.md. -/
def Obligations.IllegalWordsRaiseIllegalCommand : Prop :=
  (∀ w : Word16, isIllegalWord w.toNat = true ↔ ∃ e, decodePort w = .error e) ∧
  (∀ w : Word16, isReservedTraceWord w.toNat = true → ∃ e, decodeTrace w = .error e) ∧
  (∀ w : Word16, isReservedTraceWord w.toNat = false → 8 ≤ w.toNat / 4096 → w.toNat / 4096 ≤ 11 →
    ∃ i, decodeTrace w = .ok i) ∧
  (∀ (s : State) (w : Word16) (rest : List HostMove), s.phase ≠ .reserved → s.busy = false →
    s.host = .issue w :: rest → isIllegalWord w.toNat = true →
    ∃ t, step s = .next t ∧ Faulted .illegalCommand none none w s t ∧ t.pin = s.pin ∧ t.trace = s.trace ∧
      SameLatches s t ∧ SameBinding s t ∧ t.hooks = s.hooks ∧ t.params = s.params ∧ t.inputs = s.inputs ∧
      t.host = rest ∧ TimePassed 0 s t) ∧
  (∀ (s t : State) (w : Word16) (x : Nat), step s = .next t → t.trace = s.trace ++ [(w, x)] →
    isReservedTraceWord w.toNat = false)

/-- spec/30_encoding.md R75: the worked encodings, both ways, with their assembler text: what the assembler reads for a host
command, what the disassembler prints for a trace word. -/
def Obligations.WorkedEncodings : Prop :=
  decodeWord 0x5433 = .ok (.send .first .instruction 0x33) ∧ encode (.send .first .instruction 0x33) = 0x5433 ∧
  Assembler.assembleLine ['s', 'e', 'n', 'd', '.', 'f', 'i', 'r', 's', 't', '.', 'i', ' ', '0', 'x', '3', '3'] = some [0x5433] ∧
  decodeWord 0x5432 = .ok (.send .first .instruction 0x32) ∧ encode (.send .first .instruction 0x32) = 0x5432 ∧
  Assembler.assembleLine ['s', 'e', 'n', 'd', '.', 'f', 'i', 'r', 's', 't', '.', 'i', ' ', '0', 'x', '3', '2'] = some [0x5432] ∧
  decodeWord 0x5141 = .ok (.send .all .data 0x41) ∧ encode (.send .all .data 0x41) = 0x5141 ∧
  Assembler.assembleLine ['s', 'e', 'n', 'd', '.', 'a', 'l', 'l', '.', 'd', ' ', '0', 'x', '4', '1'] = some [0x5141] ∧
  decodeWord 0x5942 = .ok (.send .second .data 0x42) ∧ encode (.send .second .data 0x42) = 0x5942 ∧
  Assembler.assembleLine ['s', 'e', 'n', 'd', '.', 's', 'e', 'c', 'o', 'n', 'd', '.', 'd', ' ', '0', 'x', '4', '2'] = some [0x5942] ∧
  decodeWord 0x6001 = .ok (.bl true) ∧ encode (.bl true) = 0x6001 ∧
  Assembler.assembleLine ['b', 'l', ' ', 'o', 'n'] = some [0x6001] ∧
  decodeWord 0x9201 = .ok (.uwr .rs true) ∧ encode (.uwr .rs true) = 0x9201 ∧
  Assembler.print (.uwr .rs true) = some ['u', 'w', 'r', ' ', 'r', 's', ',', ' ', '1'] ∧
  decodeWord 0x9600 = .ok (.uwr .d7 false) ∧ encode (.uwr .d7 false) = 0x9600 ∧
  Assembler.print (.uwr .d7 false) = some ['u', 'w', 'r', ' ', 'd', '7', ',', ' ', '0'] ∧
  decodeWord 0x9101 = .ok (.uwr .en2 true) ∧ encode (.uwr .en2 true) = 0x9101 ∧
  Assembler.print (.uwr .en2 true) = some ['u', 'w', 'r', ' ', 'e', 'n', '2', ',', ' ', '1'] ∧
  decodeWord 0x8700 = .ok (.uacq .bl) ∧ encode (.uacq .bl) = 0x8700 ∧
  Assembler.print (.uacq .bl) = some ['u', 'a', 'c', 'q', ' ', 'b', 'l'] ∧
  decodeWord 0xA000 = .ok (.urel .en) ∧ encode (.urel .en) = 0xA000 ∧
  Assembler.print (.urel .en) = some ['u', 'r', 'e', 'l', ' ', 'e', 'n'] ∧
  decodeWord 0xB000 = .ok (.udly 0) ∧ encode (.udly 0) = 0xB000 ∧
  Assembler.print (.udly 0) = some ['u', 'd', 'l', 'y', ' ', 'T'] ∧
  decodeWord 0xB002 = .ok (.udly 2) ∧ encode (.udly 2) = 0xB002 ∧
  Assembler.print (.udly 2) = some ['u', 'd', 'l', 'y', ' ', 'P', 'B', '2']

/-- spec/30_encoding.md R73, R74: the assembler reads back the text of every host command as its one word; an imm8 in
decimal, hexadecimal or binary digits is the number they write; the disassembler prints the text of R73 for every trace word;
and the pseudo-instructions expand to the commands of R74. What R73 does not fix of the text (blanks, leading zeros, the two
digits printed) is the model's presumption, notes/assumptions/16.md. -/
def Obligations.AssemblerReadsBackEveryCommand : Prop :=
  (∀ i, isCommand i = true → ∃ text, Assembler.print i = some text ∧ Assembler.assembleLine text = some [encode i]) ∧
  (∀ n, n < 256 →
    Assembler.parseImm8 (Nat.toDigits 10 n) = some (BitVec.ofNat 8 n) ∧
    Assembler.parseImm8 ('0' :: 'x' :: Nat.toDigits 16 n) = some (BitVec.ofNat 8 n) ∧
    Assembler.parseImm8 ('0' :: 'b' :: Nat.toDigits 2 n) = some (BitVec.ofNat 8 n)) ∧
  (∀ n, 256 ≤ n → Assembler.parseImm8 (Nat.toDigits 10 n) = none) ∧
  (∀ (r : Role) (name : List Char), (r, name) ∈
      [(.en, ['e', 'n']), (.en2, ['e', 'n', '2']), (.rs, ['r', 's']), (.d4, ['d', '4']), (.d5, ['d', '5']),
        (.d6, ['d', '6']), (.d7, ['d', '7']), (.bl, ['b', 'l'])] →
    Assembler.print (.uacq r) = some (['u', 'a', 'c', 'q', ' '] ++ name) ∧
    Assembler.print (.urel r) = some (['u', 'r', 'e', 'l', ' '] ++ name) ∧
    Assembler.print (.uwr r false) = some (['u', 'w', 'r', ' '] ++ name ++ [',', ' ', '0']) ∧
    Assembler.print (.uwr r true) = some (['u', 'w', 'r', ' '] ++ name ++ [',', ' ', '1'])) ∧
  Assembler.print (.udly 0) = some ['u', 'd', 'l', 'y', ' ', 'T'] ∧
  Assembler.print (.udly 1) = some ['u', 'd', 'l', 'y', ' ', 'P', 'B', '1'] ∧
  Assembler.print (.udly 2) = some ['u', 'd', 'l', 'y', ' ', 'P', 'B', '2'] ∧
  Assembler.print (.udly 3) = some ['u', 'd', 'l', 'y', ' ', 'P', 'B', '3'] ∧
  (∀ i, i.wf = true → ∃ text, Assembler.print i = some text) ∧
  Assembler.assembleLine ['i', 'n', 'i', 't'] = some [0x1000, 0x2000, 0x3000, 0x4000] ∧
  Assembler.assembleLine ['s', 'h', 'u', 't', 'd', 'o', 'w', 'n'] = some [0x7000] ∧
  (∀ (v : Byte) (text : List Char), Assembler.parseImm8 text = some v →
    Assembler.assembleLine (['c', 'm', 'd', ' '] ++ text) = some [encode (.send .all .instruction v)] ∧
    Assembler.assembleLine (['d', 'a', 't', ' '] ++ text) = some [encode (.send .all .data v)])

/-! ### The step -/

/-- A step runs the decoded instruction: the presented word's command while the block is idle, the current primitive's
while a command runs (spec/30_encoding.md R66, R67; spec/00_scope.md R5, R13). -/
def Obligations.StepRunsDecodedInstruction : Prop :=
  ∀ s : State, s.phase ≠ .reserved →
    (∀ w rest i, s.busy = false → s.host = .issue w :: rest → decodePort w = .ok i →
      step s = exec i { s with host := rest }) ∧
    (∀ p ps, s.busy = true → s.plan = p :: ps → step s = exec p.toInstr s)

/-- The model's withFetchWord (notes/assumptions/13.md): the next step runs exactly the instruction of the word. -/
def Obligations.FetchedWordRuns : Prop :=
  ∀ (i : Instr) (s : State), i.wf = true → s.phase ≠ .reserved →
    decodeTableWord 16 (encode i).toNat = some i ∧
    (isCommand i = true → step (s.withFetchWord 16 (encode i).toNat) =
      exec i { s with busy := false, cur := none, upc := 0, plan := [], stage := 0, fin := .done }) ∧
    (isCommand i = false → step (s.withFetchWord 16 (encode i).toNat) =
      exec i (s.withFetchWord 16 (encode i).toNat))

/-- spec/10_state.md R18 and 93_implementation_defined.md X5: a state in PHASE 0b111 is refused.
The refusal is notes/assumptions/11.md. -/
def Obligations.ReservedPhaseRefused : Prop :=
  ∀ s : State, s.phase = .reserved → step s = .refused .reservedPhase

/-- spec/60_exceptions.md R127, spec/20_memory.md R56: a host idle interval changes NOW only (and uses the model's draw and
host move).
That a host without moves idles is notes/assumptions/9.md. -/
def Obligations.IdleChangesOnlyNow : Prop :=
  ∀ s : State, s.phase ≠ .reserved → s.busy = false → (s.host = [] ∨ ∃ rest, s.host = .idle :: rest) →
    step s = .next { s with
      now := s.now + s.draw.dur, host := s.host.tail, script := s.script.tail, drawIx := s.drawIx + 1 }

/-- spec/30_encoding.md R66 (b): while BUSY = 1 the host has no move.
The refusal portBusy is notes/assumptions/11.md, the host as a list of moves notes/assumptions/9.md. -/
def Obligations.HostHasNoMoveWhileBusy : Prop :=
  ∀ s : State, s.busy = true →
    (∀ t, step s = .next t → t.host = s.host) ∧
    (∀ i, isCommand i = true → exec i s = .refused .portBusy)

/-! ### Pin Lifecycle Manager primitives -/

/-- spec/40_pin_manager.md R81: the three requests of UACQ, what each success does, and that a failure writes nothing of PIN
and (without unwinding, R103) raises PinUnavailable.
That each request's outcome acts in its own step is notes/assumptions/5.md. -/
def Obligations.UacqAcquiresInThreeSteps : Prop :=
  ∀ (r : Role) (s : State) (rest : List Prim), s.plan = .acq r :: rest →
    (s.stage = 0 → s.draw.exportOk = true → ∃ t, exec (.uacq r) s = .next t ∧
      t.trace = s.trace ++ [(encode (.uacq r), s.now)] ∧ t.pin = s.pin ∧ WentOn s.plan 1 s t ∧
      SameLatches s t ∧ Untouched s t ∧ TimePassed 0 s t) ∧
    (s.stage = 1 → s.draw.dirOk = true → ∃ t, exec (.uacq r) s = .next t ∧
      t.trace = s.trace ∧ t.pin = s.pin ∧ WentOn s.plan 2 s t ∧
      SameLatches s t ∧ Untouched s t ∧ TimePassed 0 s t) ∧
    (s.stage = 2 → s.draw.openOk = true → rest ≠ [] → ∃ t, exec (.uacq r) s = .next t ∧
      t.trace = s.trace ∧ t.pin = s.pin.set r { acq := true, dir := .output, hnd := true, lvl := some false } ∧
      WentOn rest 0 s t ∧ SameLatches s t ∧ Untouched s t ∧ TimePassed 0 s t) ∧
    (s.stage = 2 → s.draw.openOk = true → rest = [] → s.fin = .acquired → ∃ t, exec (.uacq r) s = .next t ∧
      t.trace = s.trace ∧ t.pin = s.pin.set r { acq := true, dir := .output, hnd := true, lvl := some false } ∧
      Ended 0x00 t ∧ t.phase = .pinsAcquired ∧ t.fault = s.fault ∧ t.hooks = s.hooks ∧ SameBinding s t ∧
      SameWorld s t ∧ SameLatches s t ∧ TimePassed 0 s t) ∧
    (s.params.unwind = false →
      ((s.stage = 0 ∧ s.draw.exportOk = false) ∨ (s.stage = 1 ∧ s.draw.dirOk = false) ∨
        (s.stage = 2 ∧ s.draw.openOk = false)) →
      ∃ t, exec (.uacq r) s = .next t ∧
        t.trace = s.trace ++ (if s.stage = 0 then [(encode (.uacq r), s.now)] else []) ∧ t.pin = s.pin ∧
        Faulted .pinUnavailable (some r) (s.bind.get r) (s.cur.getD 0x0000) s t ∧
        SameLatches s t ∧ SameBinding s t ∧ t.hooks = s.hooks ∧ SameWorld s t ∧ TimePassed 0 s t)

/-- spec/42_lifecycle.md R104 (with P_UNWIND = true): an Acquire(r) that fails at any of its three requests is followed by
the Releases of the active roles before r in ACQ_ORDER, in reverse, and then by PinUnavailable; with none before it the fault
is raised at once. That the roles before r are the ones ACQALL acquired is the model's reading, notes/assumptions/10.md; that
the failure acts in the step of the request is notes/assumptions/5.md. -/
def Obligations.FailedAcquireUnwinds : Prop :=
  ∀ (s : State) (r : Role) (before after : List Role), s.params.unwind = true →
    acqOrder.filter s.active.get = before ++ r :: after →
    ((s.stage = 0 ∧ s.draw.exportOk = false) ∨ (s.stage = 1 ∧ s.draw.dirOk = false) ∨
      (s.stage = 2 ∧ s.draw.openOk = false)) →
    ∃ t, exec (.uacq r) s = .next t ∧ t.pin = s.pin ∧
      t.trace = s.trace ++ (if s.stage = 0 then [(encode (.uacq r), s.now)] else []) ∧
      SameLatches s t ∧ SameBinding s t ∧ t.hooks = s.hooks ∧ SameWorld s t ∧ TimePassed 0 s t ∧
      (before ≠ [] → t.plan = before.reverse.map .rel ∧ t.fin = .unavailable r ∧ t.stage = 0 ∧ t.upc = s.upc + 1 ∧
        t.busy = s.busy ∧ t.cur = s.cur ∧ t.resp = s.resp ∧ t.phase = s.phase ∧ t.fault = s.fault) ∧
      (before = [] → Faulted .pinUnavailable (some r) (s.bind.get r) (s.cur.getD 0x0000) s t)

/-- spec/40_pin_manager.md R82: UWR writes the level, or fails; a role that is not acquired raises PinNotAcquired before the
Emit. The latches of an enable's write are ControllerLatchRule's.
That the end of the command and the fault are in the write's own step is notes/assumptions/5.md. -/
def Obligations.UwrWritesTheLevel : Prop :=
  ∀ (r : Role) (b : Bool) (s : State),
    (∀ q rest, s.plan = .wr r b :: q :: rest → (s.pin.get r).acq = true → s.draw.writeOk = true →
      ∃ t, exec (.uwr r b) s = .next t ∧ t.trace = s.trace ++ [(encode (.uwr r b), s.now)] ∧
        t.pin = s.pin.set r { s.pin.get r with lvl := some b } ∧ WentOn (q :: rest) 0 s t ∧
        (r ≠ .en → t.latch1 = s.latch1) ∧ (r ≠ .en2 → t.latch2 = s.latch2) ∧ Untouched s t ∧ TimePassed 0 s t) ∧
    (s.plan = [.wr r b] → s.fin = .done → (s.pin.get r).acq = true → s.draw.writeOk = true →
      ∃ t, exec (.uwr r b) s = .next t ∧ t.trace = s.trace ++ [(encode (.uwr r b), s.now)] ∧
        t.pin = s.pin.set r { s.pin.get r with lvl := some b } ∧ Ended 0x00 t ∧
        (r ≠ .en → t.latch1 = s.latch1) ∧ (r ≠ .en2 → t.latch2 = s.latch2) ∧ Untouched s t ∧ TimePassed 0 s t) ∧
    ((s.pin.get r).acq = true → s.draw.writeOk = false →
      ∃ t, exec (.uwr r b) s = .next t ∧ t.trace = s.trace ++ [(encode (.uwr r b), s.now)] ∧
        t.pin = s.pin.set r { s.pin.get r with lvl := none } ∧
        Faulted .writeFailure (some r) (s.bind.get r) (s.cur.getD 0x0000) s t ∧
        (r ≠ .en → t.latch1 = s.latch1) ∧ (r ≠ .en2 → t.latch2 = s.latch2) ∧ SameBinding s t ∧ t.hooks = s.hooks ∧
        SameWorld s t ∧ TimePassed 0 s t) ∧
    ((s.pin.get r).acq = false →
      ∃ t, exec (.uwr r b) s = .next t ∧ t.trace = s.trace ∧ t.pin = s.pin ∧ SameLatches s t ∧
        Faulted .pinNotAcquired (some r) (s.bind.get r) (s.cur.getD 0x0000) s t ∧ SameBinding s t ∧
        t.hooks = s.hooks ∧ SameWorld s t ∧ TimePassed 0 s t)

/-- spec/40_pin_manager.md R87: a write changes only the line it names, in a transmission; PHASE changes only when it fails,
through the fault procedure. -/
def Obligations.UwrChangesOnlyItsLine : Prop :=
  ∀ (r : Role) (b : Bool) (s t : State), s.fin = .done → exec (.uwr r b) s = .next t →
    (∀ q, q ≠ r → t.pin.get q = s.pin.get q) ∧ SameHold (s.pin.get r) (t.pin.get r) ∧ SameBinding s t ∧
    ((s.pin.get r).acq = true → s.draw.writeOk = true → t.phase = s.phase ∧ t.fault = s.fault) ∧
    ((s.pin.get r).acq = true → s.draw.writeOk = false →
      Faulted .writeFailure (some r) (s.bind.get r) (s.cur.getD 0x0000) s t)

/-- spec/40_pin_manager.md R83: the three requests of UREL on an acquired pin, and its single step on another; a release
ignores every draw of the OS.
That the second and third step append no latch, because an undefined edge (spec/20_memory.md R58) is at the first, is
notes/assumptions/6.md; that the end of the command is in the last request's own step is notes/assumptions/5.md. -/
def Obligations.UrelReleasesThePin : Prop :=
  ∀ (r : Role) (s : State) (rest : List Prim), s.plan = .rel r :: rest →
    ((s.pin.get r).acq = true → s.stage = 0 → ∃ t, exec (.urel r) s = .next t ∧
      t.trace = s.trace ++ [(encode (.urel r), s.now)] ∧ t.pin = s.pin ∧ WentOn s.plan 1 s t ∧
      (r ≠ .en → t.latch1 = s.latch1) ∧ (r ≠ .en2 → t.latch2 = s.latch2) ∧ Untouched s t ∧ TimePassed 0 s t) ∧
    ((s.pin.get r).acq = false → s.stage = 0 → rest ≠ [] → ∃ t, exec (.urel r) s = .next t ∧
      t.trace = s.trace ++ [(encode (.urel r), s.now)] ∧ t.pin = s.pin ∧ WentOn rest 0 s t ∧
      SameLatches s t ∧ Untouched s t ∧ TimePassed 0 s t) ∧
    ((s.pin.get r).acq = false → s.stage = 0 → rest = [] → s.fin = .closed → ∃ t, exec (.urel r) s = .next t ∧
      t.trace = s.trace ++ [(encode (.urel r), s.now)] ∧ t.pin = s.pin ∧ Ended 0x00 t ∧
      t.phase = .released ∧ Unbound t ∧ t.hooks = 0b00 ∧ t.fault = s.fault ∧ SameWorld s t ∧ SameLatches s t ∧
      TimePassed 0 s t) ∧
    (s.stage = 1 → ∃ t, exec (.urel r) s = .next t ∧ t.trace = s.trace ∧ t.pin = s.pin ∧ WentOn s.plan 2 s t ∧
      SameLatches s t ∧ Untouched s t ∧ TimePassed 0 s t) ∧
    (s.stage = 2 → rest ≠ [] → ∃ t, exec (.urel r) s = .next t ∧ t.trace = s.trace ∧
      t.pin = s.pin.set r { acq := false, dir := .input, hnd := false, lvl := none } ∧ WentOn rest 0 s t ∧
      SameLatches s t ∧ Untouched s t ∧ TimePassed 0 s t) ∧
    (s.stage = 2 → rest = [] → s.fin = .closed → ∃ t, exec (.urel r) s = .next t ∧ t.trace = s.trace ∧
      t.pin = s.pin.set r { acq := false, dir := .input, hnd := false, lvl := none } ∧ Ended 0x00 t ∧
      t.phase = .released ∧ Unbound t ∧ t.hooks = 0b00 ∧ t.fault = s.fault ∧ SameWorld s t ∧ SameLatches s t ∧
      TimePassed 0 s t) ∧
    (s.stage = 2 → rest = [] → ∀ q, s.fin = .unavailable q → ∃ t, exec (.urel r) s = .next t ∧ t.trace = s.trace ∧
      t.pin = s.pin.set r { acq := false, dir := .input, hnd := false, lvl := none } ∧
      Faulted .pinUnavailable (some q) (s.bind.get q) (s.cur.getD 0x0000) s t ∧ t.hooks = s.hooks ∧
      SameBinding s t ∧ SameWorld s t ∧ SameLatches s t ∧ TimePassed 0 s t)

/-- spec/40_pin_manager.md R86: a Release of a pin that is not acquired changes nothing but TRACE and NOW (and moves to the
next primitive), and two Releases in a row leave the same PIN[r] as one. -/
def Obligations.ReleaseIsIdempotent : Prop :=
  (∀ (r : Role) (s : State) (q : Prim) (rest : List Prim), s.plan = .rel r :: q :: rest → s.stage = 0 →
    (s.pin.get r).acq = false →
    exec (.urel r) s = .next { s with
      trace := s.trace ++ [(encode (.urel r), s.now)], now := s.now + s.draw.dur,
      plan := q :: rest, stage := 0, upc := s.upc + 1, script := s.script.tail, drawIx := s.drawIx + 1 }) ∧
  (∀ (r : Role) (s : State) (q : Prim) (rest : List Prim), s.phase ≠ .reserved → s.busy = true →
    s.plan = .rel r :: .rel r :: q :: rest → s.stage = 0 → (s.pin.get r).acq = true →
    ∃ t u, run 3 s = .next t ∧ run 4 s = .next u ∧ (t.pin.get r).acq = false ∧ u.pin = t.pin ∧ u.plan = q :: rest)

/-- spec/40_pin_manager.md R84: UDLY emits its word and lasts at least its class's bound; it writes nothing else. A last delay
ends its command in its own step (spec/30_encoding.md R67, spec/42_lifecycle.md R105, by notes/assumptions/5.md); the duration
is the bound plus the drawn excess by notes/assumptions/7.md. -/
def Obligations.UdlyLastsAtLeastItsBound : Prop :=
  ∀ (c : DelayClass) (s : State),
    (∀ q rest, s.plan = .dly c :: q :: rest →
      ∃ t, exec (.udly c.code) s = .next t ∧ t.trace = s.trace ++ [(encode (.udly c.code), s.now)] ∧ t.pin = s.pin ∧
        SameLatches s t ∧ Untouched s t ∧ WentOn (q :: rest) 0 s t ∧
        TimePassed (match c with
          | .t => s.params.tHold | .pb1 => s.params.pb1 | .pb2 => s.params.pb2 | .pb3 => s.params.pb3) s t) ∧
    (s.plan = [.dly c] → s.fin = .done →
      ∃ t, exec (.udly c.code) s = .next t ∧ t.trace = s.trace ++ [(encode (.udly c.code), s.now)] ∧ t.pin = s.pin ∧
        SameLatches s t ∧ Untouched s t ∧ Ended 0x00 t ∧
        TimePassed (match c with
          | .t => s.params.tHold | .pb1 => s.params.pb1 | .pb2 => s.params.pb2 | .pb3 => s.params.pb3) s t) ∧
    (s.plan = [.dly c] → s.fin = .broughtUp →
      ∃ t, exec (.udly c.code) s = .next t ∧ t.trace = s.trace ++ [(encode (.udly c.code), s.now)] ∧ t.pin = s.pin ∧
        SameLatches s t ∧ Ended 0x00 t ∧ t.phase = .controllerBroughtUp ∧ t.fault = s.fault ∧ t.hooks = s.hooks ∧
        SameBinding s t ∧ SameWorld s t ∧
        TimePassed (match c with
          | .t => s.params.tHold | .pb1 => s.params.pb1 | .pb2 => s.params.pb2 | .pb3 => s.params.pb3) s t)

/-- spec/30_encoding.md R77, R69: a delay class from 4 to 255 is reserved; a UDLY of one is refused.
The refusal is notes/assumptions/11.md. -/
def Obligations.ReservedDelayClassRefused : Prop :=
  ∀ (c : Byte) (s : State), 4 ≤ c.toNat → exec (.udly c) s = .refused .reservedDelayClass

/-- spec/20_memory.md R58: what an enable's controller appends at a UWR and at the first step of a UREL of that enable, and
that no other step appends to LATCH. R58 does not say at which step of a UREL the undefined edge is: the first, stamped there,
is notes/assumptions/6.md. -/
def Obligations.ControllerLatchRule : Prop :=
  (∀ (e o : Role) (b : Bool) (s : State), (e = .en ∧ o = .en2) ∨ (e = .en2 ∧ o = .en) →
    (s.pin.get e).acq = true →
    ∃ t, exec (.uwr e b) s = .next t ∧ latchOf o t = latchOf o s ∧
      ((s.draw.writeOk = true ∧ b = false ∧ (s.pin.get e).lvl = some true) →
        ∃ rec, latchOf e t = latchOf e s ++ [rec] ∧ rec.t = s.now ∧
          (∀ l n, s.pin.rs.lvl = some l → dataLines s = some n → rec.rs = l ∧ rec.nib.toNat = n) ∧
          (s.pin.rs.lvl = none ∨ dataLines s = none → rec.rs = s.draw.latchRs ∧ rec.nib = s.draw.latchNib)) ∧
      ((s.draw.writeOk = false ∧ (s.pin.get e).lvl ≠ some false) ∨
          (s.draw.writeOk = true ∧ b = false ∧ (s.pin.get e).lvl = none) →
        latchOf e t = latchOf e s ++
          (if s.draw.latches then [{ rs := s.draw.latchRs, nib := s.draw.latchNib, t := s.now }] else [])) ∧
      ((s.draw.writeOk = true ∧ (b = true ∨ (s.pin.get e).lvl = some false)) ∨
          (s.draw.writeOk = false ∧ (s.pin.get e).lvl = some false) →
        latchOf e t = latchOf e s)) ∧
  (∀ (e o : Role) (s : State), (e = .en ∧ o = .en2) ∨ (e = .en2 ∧ o = .en) →
    (s.pin.get e).acq = true → s.stage = 0 →
    ∃ t, exec (.urel e) s = .next t ∧ latchOf o t = latchOf o s ∧
      ((s.pin.get e).lvl ≠ some false → latchOf e t = latchOf e s ++
        (if s.draw.latches then [{ rs := s.draw.latchRs, nib := s.draw.latchNib, t := s.now }] else [])) ∧
      ((s.pin.get e).lvl = some false → latchOf e t = latchOf e s)) ∧
  (∀ s t : State, step s = .next t →
    (t.latch1 ≠ s.latch1 → ∃ w, t.trace = s.trace ++ [(w, s.now)] ∧ (w = 0x9000 ∨ w = 0x9001 ∨ w = 0xA000)) ∧
    (t.latch2 ≠ s.latch2 → ∃ w, t.trace = s.trace ++ [(w, s.now)] ∧ (w = 0x9100 ∨ w = 0x9101 ∨ w = 0xA100)))

/-! ### Nibble Transmission Engine -/

/-- spec/41_transmission.md R90: Enables(tgt), TargetUnavailable before any write for Second without two controllers, and the
order of the pulses when both enables are selected.
That NOW advances at a step without a request is spec/10_state.md R31, by notes/assumptions/8.md. -/
def Obligations.EnableSelection : Prop :=
  (∀ nc, enables .first nc = some [.en]) ∧
  (enables .all (some .two) = some [.en, .en2]) ∧
  (∀ nc, nc ≠ some .two → enables .all nc = some [.en]) ∧
  (enables .second (some .two) = some [.en2]) ∧
  (∀ n, (sendNibble [.en, .en2] n).drop 10 =
    [.wr .en true, .wr .en2 true, .dly .t, .wr .en false, .wr .en2 false, .dly .t]) ∧
  (∀ (mode : Mode) (v : Byte) (s : State), s.busy = false → s.phase = .operational → s.cfgNc ≠ some .two →
    ∃ t, exec (.send .second mode v) s = .next t ∧
      Faulted .targetUnavailable none none (encode (.send .second mode v)) s t ∧ t.trace = s.trace ∧ t.pin = s.pin ∧
      SameLatches s t ∧ SameBinding s t ∧ t.hooks = s.hooks ∧ SameWorld s t ∧ TimePassed 0 s t)

/-- spec/30_encoding.md R67, spec/41_transmission.md R89, R91: the acceptance of a SEND writes RS in the same step, and leaves
the two nibbles to come. -/
def Obligations.SendStartsWithRegisterSelect : Prop :=
  ∀ (tgt : Target) (mode : Mode) (v : Byte) (es : List Role) (s : State), s.busy = false → s.phase = .operational →
    enables tgt s.cfgNc = some es → s.pin.rs.acq = true → s.draw.writeOk = true →
    ∃ t, exec (.send tgt mode v) s = .next t ∧
      Started (encode (.send tgt mode v)) (sendNibble es (highNibble v) ++ sendNibble es (lowNibble v)) 0 .done s t ∧
      t.trace = s.trace ++ [(encode (.uwr .rs mode.level), s.now)] ∧
      t.pin = s.pin.set .rs { s.pin.rs with lvl := some mode.level } ∧
      SameLatches s t ∧ Untouched s t ∧ TimePassed 0 s t

/-- spec/41_transmission.md R94: a SEND that no fault ends takes 29 + 4(n − 1) steps, emits 1 + 2 × (8 + 2n) UWR words and
8 UDLY words of class 0 and nothing else, and lasts at least 8 × P_T_HOLD. -/
def Obligations.SendCountsAndLength : Prop :=
  ∀ (tgt : Target) (mode : Mode) (v : Byte) (es : List Role) (s : State), ReadyToSend es s →
    enables tgt s.cfgNc = some es → WritesSucceed (25 + 4 * es.length) s →
    ∃ t₁ t, exec (.send tgt mode v) s = .next t₁ ∧ run (24 + 4 * es.length) t₁ = .next t ∧
      Ended 0x00 t ∧ Untouched s t ∧
      (∀ k, k < 24 + 4 * es.length → ∃ u, run k t₁ = .next u ∧ u.busy = true ∧ u.upc = k + 1) ∧
      (∃ new, t.trace = s.trace ++ new ∧ (writesSeen new).length = 1 + 2 * (8 + 2 * es.length) ∧
        delaysSeen new = List.replicate 8 0xB000 ∧ new.length = 29 + 4 * (es.length - 1)) ∧
      s.now + 8 * s.params.tHold ≤ t.now

/-- spec/41_transmission.md R97, R98: the data lines after each clear and drive step of a SEND, and what each controller
latches: two records per selected controller, RS by mode, high nibble first. -/
def Obligations.SendDrivesAndLatchesNibbles : Prop :=
  ∀ (tgt : Target) (mode : Mode) (v : Byte) (es : List Role) (s : State), ReadyToSend es s →
    enables tgt s.cfgNc = some es → WritesSucceed (25 + 4 * es.length) s →
    ∃ t₁ t, exec (.send tgt mode v) s = .next t₁ ∧ run (24 + 4 * es.length) t₁ = .next t ∧
      (∃ u, run 4 t₁ = .next u ∧ dataLines u = some 0) ∧
      (∃ u, run 9 t₁ = .next u ∧ dataLines u = some (v.toNat / 16)) ∧
      (∃ u, run (16 + 2 * es.length) t₁ = .next u ∧ dataLines u = some 0) ∧
      (∃ u, run (21 + 2 * es.length) t₁ = .next u ∧ dataLines u = some (v.toNat % 16)) ∧
      ∀ pair, pair = [(mode.level, BitVec.ofNat 4 (v.toNat / 16)), (mode.level, BitVec.ofNat 4 (v.toNat % 16))] →
        contents t.latch1 = contents s.latch1 ++ (if tgt = .second then [] else pair) ∧
        contents t.latch2 = contents s.latch2 ++
          (if tgt = .second ∨ (tgt = .all ∧ s.cfgNc = some .two) then pair else [])

/-- spec/41_transmission.md R89, R91, R100: the lines after a SEND that no fault ends: RS by mode, the data lines at the low
nibble, the selected enables low, every other line as before, and no pin's hold changed. -/
def Obligations.SendLeavesLines : Prop :=
  ∀ (tgt : Target) (mode : Mode) (v : Byte) (es : List Role) (s : State), ReadyToSend es s →
    enables tgt s.cfgNc = some es → WritesSucceed (25 + 4 * es.length) s →
    ∃ t₁ t, exec (.send tgt mode v) s = .next t₁ ∧ run (24 + 4 * es.length) t₁ = .next t ∧ t.busy = false ∧
      t.pin.rs.lvl = some mode.level ∧ dataLines t = some (v.toNat % 16) ∧
      (∀ e ∈ es, (t.pin.get e).lvl = some false) ∧
      (∀ r, isDataOrRs r = false → r ∉ es → t.pin.get r = s.pin.get r) ∧
      (∀ r, SameHold (s.pin.get r) (t.pin.get r))

/-- spec/41_transmission.md R96: RS keeps the level of the mode from the first write of a SEND to its end. -/
def Obligations.SendHoldsRegisterSelect : Prop :=
  ∀ (tgt : Target) (mode : Mode) (v : Byte) (es : List Role) (s : State), ReadyToSend es s →
    enables tgt s.cfgNc = some es → WritesSucceed (25 + 4 * es.length) s →
    ∃ t₁, exec (.send tgt mode v) s = .next t₁ ∧
      ∀ k, k ≤ 24 + 4 * es.length → ∃ u, run k t₁ = .next u ∧ u.pin.rs.lvl = some mode.level ∧
        ((writesSeen u.trace).filter (fun w => w = 0x9200 ∨ w = 0x9201)).length =
          ((writesSeen s.trace).filter (fun w => w = 0x9200 ∨ w = 0x9201)).length + 1

/-- spec/41_transmission.md R93: every latch that a SEND appends is well-timed(P_T_HOLD), and stays so whatever follows the
SEND; each latch carries the stamp of its falling-edge word. -/
def Obligations.SendLatchesAreWellTimed : Prop :=
  ∀ (tgt : Target) (mode : Mode) (v : Byte) (es : List Role) (s : State), ReadyToSend es s →
    enables tgt s.cfgNc = some es → WritesSucceed (25 + 4 * es.length) s →
    ∃ t₁ t, exec (.send tgt mode v) s = .next t₁ ∧ run (24 + 4 * es.length) t₁ = .next t ∧
      ∀ e ∈ es, FallsWellTimed s.params.tHold e s.trace.length t.now t.trace ∧
        (latchOf e t).map (·.t) = (latchOf e s).map (·.t) ++ fallStamps e s.trace.length t.trace

/-- spec/41_transmission.md R92: in every state that meets the invariant and whose step writes RS or a data line, every
acquired enable line has level some false. -/
def Obligations.EnablesAreLowAtDataWrites : Prop :=
  ∀ s t : State, Invariant s → step s = .next t →
    (∃ w x, t.trace = s.trace ++ [(w, x)] ∧ isSetupWord w = true) →
    (s.pin.en.acq = true → s.pin.en.lvl = some false) ∧ (s.pin.en2.acq = true → s.pin.en2.lvl = some false)

/-- spec/41_transmission.md R95: BL writes its line when ACTIVE[BL], and otherwise does nothing but take a step; outside
Operational it raises IllegalPhase.
That NOW advances at a step without a request is spec/10_state.md R31, by notes/assumptions/8.md. -/
def Obligations.BlWritesWhenActive : Prop :=
  (∀ (state : Bool) (s : State), s.busy = false → s.phase ≠ .operational →
    ∃ t, exec (.bl state) s = .next t ∧ Faulted .illegalPhase none none (encode (.bl state)) s t ∧ t.trace = s.trace ∧
      t.pin = s.pin ∧ SameLatches s t ∧ SameBinding s t ∧ t.hooks = s.hooks ∧ SameWorld s t ∧ TimePassed 0 s t) ∧
  ∀ (state : Bool) (s : State), s.busy = false → s.phase = .operational →
    (s.active.bl = true → s.pin.bl.acq = true → s.draw.writeOk = true →
      ∃ t, exec (.bl state) s = .next t ∧ Ended 0x00 t ∧ t.trace = s.trace ++ [(encode (.uwr .bl state), s.now)] ∧
        t.pin = s.pin.set .bl { s.pin.bl with lvl := some state } ∧ SameLatches s t ∧ Untouched s t ∧
        TimePassed 0 s t) ∧
    (s.active.bl = true → s.pin.bl.acq = true → s.draw.writeOk = false →
      ∃ t, exec (.bl state) s = .next t ∧ Faulted .writeFailure (some .bl) s.bind.bl (encode (.bl state)) s t ∧
        t.trace = s.trace ++ [(encode (.uwr .bl state), s.now)] ∧
        t.pin = s.pin.set .bl { s.pin.bl with lvl := none } ∧ SameLatches s t ∧ SameBinding s t ∧
        t.hooks = s.hooks ∧ SameWorld s t ∧ TimePassed 0 s t) ∧
    (s.active.bl = false →
      ∃ t, exec (.bl state) s = .next t ∧ Ended 0x00 t ∧ t.trace = s.trace ∧ t.pin = s.pin ∧ SameLatches s t ∧
        Untouched s t ∧ TimePassed 0 s t)

/-- spec/41_transmission.md R100: what SEND and BL leave unchanged, in every step of theirs from a state that meets the
invariant: the binding, HOOKS, and every pin but for levels; they emit only UWR and UDLY words. -/
def Obligations.SendAndBlKeepPinsAndBinding : Prop :=
  ∀ s t : State, Invariant s → step s = .next t →
    ((∃ tgt mode v, stepCommand s = some (.send tgt mode v)) ∨ ∃ b, stepCommand s = some (.bl b)) →
    SameBinding s t ∧ t.hooks = s.hooks ∧ (∀ r, SameHold (s.pin.get r) (t.pin.get r)) ∧
    (t.phase = s.phase ∨ (t.phase = .failed ∧ t.fault.valid = true)) ∧
    (t.trace = s.trace ∨ ∃ w, t.trace = s.trace ++ [(w, s.now)] ∧ (isWriteWord w = true ∨ isDelayWord w = true))

/-! ### Lifecycle commands -/

/-- spec/42_lifecycle.md R101: BIND resolves every role, decides the optional ones and leaves PinsBound, when the allocation
succeeds and no two active roles share an id.
That NOW advances at a step without a request is spec/10_state.md R31, by notes/assumptions/8.md. -/
def Obligations.BindResolvesConfiguration : Prop :=
  ∀ s : State, s.busy = false → s.phase = .unconfigured → s.draw.allocOk = true →
    (∀ r q, r ≠ q → resolveActive s.inputs s.params r = true → resolveActive s.inputs s.params q = true →
      resolve s.inputs s.params r ≠ resolve s.inputs s.params q) →
    ∃ t, exec .bind s = .next t ∧ Ended 0x00 t ∧ t.phase = .pinsBound ∧
      t.cfgNc = some (if s.inputs.cfgMulti then .two else .one) ∧ t.cfgBlp = some s.inputs.cfgBlPresent ∧
      (∀ r, r ≠ .en2 → r ≠ .bl → t.active.get r = true) ∧ t.active.en2 = s.inputs.cfgMulti ∧
      t.active.bl = (s.inputs.cfgBlPresent &&
        s.params.blInRange.holds (s.inputs.cfgPin.bl.getD s.params.defaultPin.bl)) ∧
      (∀ r, t.bind.get r = if t.active.get r = true
        then some ((s.inputs.cfgPin.get r).getD (s.params.defaultPin.get r)) else none) ∧
      t.pin = s.pin ∧ t.trace = s.trace ∧ t.fault = s.fault ∧ t.hooks = s.hooks ∧ SameLatches s t ∧ SameWorld s t ∧
      TimePassed 0 s t

/-- spec/42_lifecycle.md R102: the first active role in ACQ_ORDER whose id equals that of an earlier one is reported as
BindingAlias, with its id, and no binding is written.
That NOW advances at a step without a request is spec/10_state.md R31, by notes/assumptions/8.md. -/
def Obligations.BindReportsFirstAlias : Prop :=
  ∀ (s : State) (before after : List Role) (r : Role), s.busy = false → s.phase = .unconfigured →
    s.draw.allocOk = true → acqOrder.filter (resolveActive s.inputs s.params) = before ++ r :: after →
    before.Pairwise (fun a b => resolve s.inputs s.params a ≠ resolve s.inputs s.params b) →
    (∃ q ∈ before, resolve s.inputs s.params q = resolve s.inputs s.params r) →
    ∃ t, exec .bind s = .next t ∧
      Faulted .bindingAlias (some r) (some (resolve s.inputs s.params r)) 0x1000 s t ∧ SameBinding s t ∧
      t.pin = s.pin ∧ t.trace = s.trace ∧ t.hooks = s.hooks ∧ SameLatches s t ∧ SameWorld s t ∧ TimePassed 0 s t

/-- spec/42_lifecycle.md R101, spec/60_exceptions.md R117: AllocationFailure comes before BindingAlias, whatever the ids.
That NOW advances at a step without a request is spec/10_state.md R31, by notes/assumptions/8.md. -/
def Obligations.AllocationFailureComesFirst : Prop :=
  ∀ s : State, s.busy = false → s.phase = .unconfigured → s.draw.allocOk = false →
    ∃ t, exec .bind s = .next t ∧ Faulted .allocationFailure none none 0x1000 s t ∧ SameBinding s t ∧
      t.pin = s.pin ∧ t.trace = s.trace ∧ t.hooks = s.hooks ∧ SameLatches s t ∧ SameWorld s t ∧ TimePassed 0 s t

/-- spec/42_lifecycle.md R103, R111: a successful ACQALL takes three steps per active role and acquires exactly the roles of
R111's table in its order, low; the state before it is any idle state of PinsBound that meets the invariant. -/
def Obligations.AcqallAcquiresConfiguredSet : Prop :=
  ∀ s : State, Invariant s → s.busy = false → s.phase = .pinsBound →
    let roles : List Role :=
      match decide (s.cfgNc = some .two), s.active.bl with
      | false, false => [.en, .rs, .d7, .d6, .d5, .d4]
      | false, true => [.en, .rs, .d7, .d6, .d5, .d4, .bl]
      | true, false => [.en, .rs, .d7, .d6, .d5, .d4, .en2]
      | true, true => [.en, .rs, .d7, .d6, .d5, .d4, .bl, .en2]
    RequestsSucceed (3 * roles.length) s →
    ∃ t₁ t, exec .acqall s = .next t₁ ∧ run (3 * roles.length - 1) t₁ = .next t ∧ Ended 0x00 t ∧
      t.phase = .pinsAcquired ∧ t.trace.map Prod.fst = s.trace.map Prod.fst ++ roles.map (fun r => encode (.uacq r)) ∧
      (∀ r, t.pin.get r = if r ∈ roles then { acq := true, dir := .output, hnd := true, lvl := some false }
        else { acq := false, dir := .input, hnd := false, lvl := none }) ∧
      t.fault = s.fault ∧ t.hooks = s.hooks ∧ SameBinding s t ∧ SameLatches s t ∧ SameWorld s t

/-- spec/42_lifecycle.md R105, R106: a BRINGUP that no fault ends sends 0x33, 0x32 and P_FUNCSET4 with their pauses: the
latch sequence, its timing, the number of trace words and the least duration. -/
def Obligations.BringupSendsResetSequence : Prop :=
  ∀ (s : State) (es : List Role), Invariant s → s.busy = false → s.phase = .pinsAcquired →
    enables s.params.bringupTarget.target s.cfgNc = some es → WritesSucceed (78 + 12 * es.length) s →
    ∃ t₁ t, exec .bringup s = .next t₁ ∧ run (77 + 12 * es.length) t₁ = .next t ∧ Ended 0x00 t ∧
      t.phase = .controllerBroughtUp ∧
      (∀ nibbles, nibbles = [(false, 0x3), (false, 0x3), (false, 0x3), (false, 0x2),
          (false, BitVec.ofNat 4 (s.params.funcset4.toNat / 16)),
          (false, BitVec.ofNat 4 (s.params.funcset4.toNat % 16))] →
        contents t.latch1 = contents s.latch1 ++ nibbles ∧
        contents t.latch2 = contents s.latch2 ++
          (if s.params.bringupTarget = .all ∧ s.cfgNc = some .two then nibbles else [])) ∧
      (∀ e ∈ es, FallsWellTimed s.params.tHold e s.trace.length t.now t.trace ∧
        (latchOf e t).map (·.t) = (latchOf e s).map (·.t) ++ fallStamps e s.trace.length t.trace) ∧
      (∃ new, t.trace = s.trace ++ new ∧ new.length = 3 * (29 + 4 * (es.length - 1)) + 3) ∧
      s.now + 24 * s.params.tHold + s.params.pb1 + s.params.pb2 + s.params.pb3 ≤ t.now ∧
      t.pin.rs.lvl = some false ∧ dataLines t = some (s.params.funcset4.toNat % 16) ∧
      (∀ e ∈ es, (t.pin.get e).lvl = some false) ∧
      (∀ r, isDataOrRs r = false → r ∉ es → t.pin.get r = s.pin.get r) ∧
      (∀ r, SameHold (s.pin.get r) (t.pin.get r)) ∧
      t.fault = s.fault ∧ t.hooks = s.hooks ∧ SameBinding s t ∧ SameWorld s t

/-- spec/42_lifecycle.md R107: START sets HOOKS and PHASE and nothing else, in one step; outside ControllerBroughtUp it
raises IllegalPhase.
That NOW advances at a step without a request is spec/10_state.md R31, by notes/assumptions/8.md. -/
def Obligations.StartRegistersHooks : Prop :=
  (∀ s : State, s.busy = false → s.phase ≠ .controllerBroughtUp →
    ∃ t, exec .start s = .next t ∧ Faulted .illegalPhase none none 0x4000 s t ∧ t.hooks = s.hooks ∧ t.trace = s.trace ∧
      t.pin = s.pin ∧ SameLatches s t ∧ SameBinding s t ∧ SameWorld s t ∧ TimePassed 0 s t) ∧
  ∀ s : State, s.busy = false → s.phase = .controllerBroughtUp →
    ∃ t, exec .start s = .next t ∧ Ended 0x00 t ∧ t.phase = .operational ∧
      t.hooks = (if s.active.bl then 0b11 else 0b01) ∧ t.trace = s.trace ∧ t.pin = s.pin ∧ t.fault = s.fault ∧
      SameLatches s t ∧ SameBinding s t ∧ SameWorld s t ∧ TimePassed 0 s t

/-- spec/42_lifecycle.md R109: the state after a successful `init`, run from reset by a host that issues its four commands,
for every configuration without an alias. -/
def Obligations.InitReachesOperational : Prop :=
  ∀ (params : Params) (inputs : Inputs) (script : List Draw) (ix : Nat),
    let s := instanceOf params inputs [.issue 0x1000, .issue 0x2000, .issue 0x3000, .issue 0x4000] script ix
    aliasCheck (resolveActive inputs params) (resolve inputs params) = none → RequestsSucceed 128 s →
    ∃ n t, n ≤ 128 ∧ run n s = .next t ∧ t.phase = .operational ∧ t.busy = false ∧ t.host = [] ∧
      t.fault.valid = false ∧ t.resp = 0x00 ∧
      (∀ r, t.active.get r = true → (t.pin.get r).acq = true ∧ (t.pin.get r).dir = .output) ∧
      t.pin.en.lvl = some false ∧ (t.active.en2 = true → t.pin.en2.lvl = some false) ∧ t.pin.rs.lvl = some false ∧
      dataLines t = some (params.funcset4.toNat % 16) ∧ (t.active.bl = true → t.pin.bl.lvl = some false) ∧
      t.hooks = (if t.active.bl then 0b11 else 0b01)

/-- spec/42_lifecycle.md R110: CLOSE from any phase ends in Released with every pin at its reset value, no binding record and
FAULT unchanged, whatever the draws, within the 24 steps of R112; from Released it changes nothing but NOW (V-C4 says no
change at all; that its one step takes time is notes/assumptions/8.md). The order of the UREL words is the spec's own decision
D16 (93_implementation_defined.md U12). -/
def Obligations.CloseReleasesEverything : Prop :=
  (∀ s : State, Invariant s → s.busy = false → s.phase ≠ .released →
    ∃ n t₁ t, n ≤ 23 ∧ exec .close s = .next t₁ ∧ run n t₁ = .next t ∧ Ended 0x00 t ∧ t.phase = .released ∧
      t.pin = every { acq := false, dir := .input, hnd := false, lvl := none } ∧ Unbound t ∧ t.hooks = 0b00 ∧
      t.fault = s.fault ∧ SameWorld s t ∧
      t.trace.map Prod.fst = s.trace.map Prod.fst ++ (relOrder.filter s.active.get).map (fun r => encode (.urel r))) ∧
  (∀ s : State, s.busy = false → s.phase = .released →
    ∃ t, exec .close s = .next t ∧ Ended 0x00 t ∧ t.pin = s.pin ∧ t.trace = s.trace ∧ SameLatches s t ∧
      Untouched s t ∧ TimePassed 0 s t)

/-- spec/42_lifecycle.md R112: every command ends, within the maximum number of steps of R112's table, whatever the draws. -/
def Obligations.EveryCommandEndsInTime : Prop :=
  ∀ (s : State) (w : Word16) (rest : List HostMove), Invariant s → s.busy = false → s.host = .issue w :: rest →
    ∃ n t, 1 ≤ n ∧ n ≤ maxSteps w ∧ run n s = .next t ∧ t.busy = false ∧ t.host = rest

/-! ### Faults and phases -/

/-- spec/60_exceptions.md R114: the legal (command, phase) pairs; any other pair raises IllegalPhase and changes nothing
else; a legal pair never does.
That NOW advances at a step without a request is spec/10_state.md R31, by notes/assumptions/8.md. -/
def Obligations.PhaseLegality : Prop :=
  ∀ (i : Instr) (s : State), isCommand i = true → s.busy = false →
    let isLegal : Prop := (i = .bind ∧ s.phase = .unconfigured) ∨ (i = .acqall ∧ s.phase = .pinsBound) ∨
      (i = .bringup ∧ s.phase = .pinsAcquired) ∨ (i = .start ∧ s.phase = .controllerBroughtUp) ∨
      ((∃ tgt mode v, i = .send tgt mode v) ∧ s.phase = .operational) ∨ ((∃ b, i = .bl b) ∧ s.phase = .operational) ∨
      i = .close
    (¬isLegal → ∃ t, exec i s = .next t ∧ Faulted .illegalPhase none none (encode i) s t ∧ t.pin = s.pin ∧
      t.trace = s.trace ∧ SameLatches s t ∧ SameBinding s t ∧ t.hooks = s.hooks ∧ SameWorld s t ∧ TimePassed 0 s t) ∧
    (isLegal → ∃ t, exec i s = .next t ∧ (t.resp = respFault .illegalPhase → t.resp = s.resp) ∧
      (t.fault.code = FaultCode.illegalPhase.code → t.fault = s.fault))

/-- spec/60_exceptions.md R116: a step that records a fault ends the command with RESP 0x80 | code, moves PHASE to Failed
unless Released, keeps the command word in FAULT.cmd, and touches neither the binding nor HOOKS. -/
def Obligations.FirstFaultIsRecorded : Prop :=
  ∀ s t : State, s.fault.valid = false → step s = .next t → t.fault.valid = true →
    (∃ c : FaultCode, t.fault.code = c.code ∧ Ended (0x80 ||| (c.code.setWidth 8)) t) ∧
    t.phase = (if s.phase = .released then .released else .failed) ∧
    (s.busy = true → t.fault.cmd = s.cur.getD 0x0000) ∧
    (s.busy = false → ∃ rest, s.host = .issue t.fault.cmd :: rest) ∧
    SameBinding s t ∧ t.hooks = s.hooks

/-- spec/60_exceptions.md R120: once FAULT.valid = 1, no step clears it or changes its fields, and a later fault still
writes its own code into RESP. -/
def Obligations.FaultIsSticky : Prop :=
  (∀ s t : State, s.fault.valid = true → step s = .next t → t.fault = s.fault) ∧
  (∀ (c : FaultCode) (role : Option Role) (id : Option Nat) (s : State), s.fault.valid = true →
    (raise c role id s).fault = s.fault ∧ (raise c role id s).resp = 0x80 ||| (c.code.setWidth 8))

/-- spec/30_encoding.md R70: the fields of a response byte, and that a step leaves RESP as it was or writes one of 0x00 and
0x81 to 0x88. -/
def Obligations.ResponseByteFormat : Prop :=
  (∀ c : FaultCode, (respFault c).getLsbD 7 = true ∧ (respFault c).extractLsb' 4 3 = 0 ∧
    (respFault c).extractLsb' 0 4 = c.code) ∧ respOk = 0x00 ∧ State.reset.resp = 0x00 ∧
  (∀ s t : State, step s = .next t →
    t.resp = s.resp ∨ t.resp.toNat = 0x00 ∨ (0x81 ≤ t.resp.toNat ∧ t.resp.toNat ≤ 0x88))

/-- spec/10_state.md R19: PHASE changes only as its table allows for the command that runs, from every state that meets the
invariant. -/
def Obligations.PhaseChangesFollowTable : Prop :=
  ∀ s t : State, Invariant s → step s = .next t → t.phase ≠ s.phase →
    phaseChange s.phase (stepCommand s) t.phase = true

/-! ### Rules of the whole machine -/

/-- spec/10_state.md R39: between the end of BIND and CLOSE no step writes BIND, ACTIVE, CFG_NC or CFG_BLP. -/
def Obligations.BindingIsImmutable : Prop :=
  ∀ s t : State, s.phase ≠ .unconfigured → step s = .next t → t.phase ≠ .released → SameBinding s t

/-- spec/10_state.md R17, spec/00_scope.md R8, R9: no step writes the parameters or the configuration inputs, which stand in
State only because step takes nothing else (notes/assumptions/2.md). -/
def Obligations.ArgumentsNeverChange : Prop :=
  ∀ s t : State, step s = .next t → t.params = s.params ∧ t.inputs = s.inputs

/-- spec/10_state.md R30: TRACE is empty at reset, and a step leaves it as it was or appends one trace word with the stamp
NOW. -/
def Obligations.TraceOnlyGrows : Prop :=
  State.reset.trace = [] ∧
  ∀ s t : State, step s = .next t →
    t.trace = s.trace ∨ ∃ i, isCommand i = false ∧ i.wf = true ∧ t.trace = s.trace ++ [(encode i, s.now)]

/-- spec/30_encoding.md R79: from every state that meets the invariant, the trace word a step emits names an active role, or
is a UDLY word of class 0 to 3. -/
def Obligations.EmittedRolesAreActive : Prop :=
  ∀ (s t : State) (w : Word16) (x : Nat), Invariant s → step s = .next t → t.trace = s.trace ++ [(w, x)] →
    (∃ r, s.active.get r = true ∧
      (decodeTrace w = .ok (.uacq r) ∨ decodeTrace w = .ok (.urel r) ∨ ∃ b, decodeTrace w = .ok (.uwr r b))) ∨
    ∃ c : Byte, c.toNat < 4 ∧ decodeTrace w = .ok (.udly c)

/-- spec/20_memory.md R56, spec/10_state.md R31: the stamp and the advance of NOW at every step, by its kind. That each step
uses one draw is notes/assumptions/1.md, the bound plus an excess notes/assumptions/7.md, and the duration of a step that makes
no request notes/assumptions/8.md. -/
def Obligations.TimeAdvancesByTheDraw : Prop :=
  ∀ s t : State, step s = .next t →
    (t.trace = s.trace ∨ ∃ w, t.trace = s.trace ++ [(w, s.now)]) ∧
    TimePassed
      (if s.busy then
        match s.plan with
        | .dly .t :: _ => s.params.tHold
        | .dly .pb1 :: _ => s.params.pb1
        | .dly .pb2 :: _ => s.params.pb2
        | .dly .pb3 :: _ => s.params.pb3
        | _ => 0
      else 0) s t

/-- spec/10_state.md R33: UPC counts the primitive steps of the running command, CUR holds its word, and both are cleared
when it ends. -/
def Obligations.UpcCountsPrimitiveSteps : Prop :=
  (State.reset.cur = none ∧ State.reset.upc = 0) ∧
  ∀ s t : State, step s = .next t →
    (s.busy = true → t.busy = true → t.upc = s.upc + 1 ∧ t.cur = s.cur) ∧
    (s.busy = true → t.busy = false → t.upc = 0 ∧ t.cur = none) ∧
    (s.busy = false → t.busy = true → t.upc = 1 ∧ ∃ w rest, s.host = .issue w :: rest ∧ t.cur = some w)

/-- spec/10_state.md R29, R31, R32, R34: no step of the sequencer reads TRACE, NOW, LATCH, HOOKS or RESP. The host may read
RESP (R34, spec/00_scope.md R5); that no host step does is the model's choice of a host that is a fixed list of moves,
notes/assumptions/9.md. Two states that differ only in these stop alike or step to states that differ only in these. -/
def Obligations.ObservationIsNeverRead : Prop :=
  ∀ s₁ s₂ : State, eraseObservation s₁ = eraseObservation s₂ →
    (∀ t₁, step s₁ = .next t₁ → ∃ t₂, step s₂ = .next t₂ ∧ eraseObservation t₁ = eraseObservation t₂) ∧
    (∀ f, step s₁ = .fault f → step s₂ = .fault f) ∧ (∀ f, step s₁ = .refused f → step s₂ = .refused f)

/-! ### Reset and invariants -/

/-- spec/70_reset_and_hazards.md R129: the reset value of every state element, and that no step leads to Unconfigured. -/
def Obligations.ResetValues : Prop :=
  (∀ s, s = State.reset →
    s.phase.code = 0b000 ∧ s.cfgNc = none ∧ s.cfgBlp = none ∧ (∀ r, s.active.get r = false) ∧
    (∀ r, s.bind.get r = none) ∧
    (∀ r, s.pin.get r = { acq := false, dir := .input, hnd := false, lvl := none }) ∧
    s.fault = { valid := false, code := 0, role := none, id := none, cmd := 0x0000 } ∧ s.resp = 0x00 ∧
    s.busy = false ∧ s.hooks = 0b00 ∧ s.trace = [] ∧ s.now = 0 ∧ s.latch1 = [] ∧ s.latch2 = [] ∧ s.cur = none ∧
    s.upc = 0) ∧
  ∀ s t : State, step s = .next t → t.phase = .unconfigured → s.phase = .unconfigured

/-- The invariant holds at reset, for every argument of the model. -/
def Obligations.ResetMeetsInvariant : Prop :=
  ∀ params inputs host script ix, Invariant (instanceOf params inputs host script ix)

/-- Every step keeps the invariant (spec/10_state.md R18, R25, R37, R40; spec/20_memory.md R54 (c), R55 (a);
spec/41_transmission.md R92). -/
def Obligations.StepKeepsInvariant : Prop :=
  ∀ s t : State, Invariant s → step s = .next t → Invariant t

/-- No step from a state that meets the invariant stops: no fault, no refusal (spec/30_encoding.md R67). -/
def Obligations.InvariantStatesNeverStop : Prop :=
  ∀ s : State, Invariant s → ∃ t, step s = .next t

/-- spec/10_state.md R25: the Managed Pin table in every reachable state. -/
def Obligations.ReachablePinsAreConsistent : Prop :=
  ∀ s : State, Reachable s → ∀ r,
    ((s.pin.get r).acq = true →
      (s.pin.get r).dir = .output ∧ (s.pin.get r).hnd = true ∧ s.active.get r = true ∧ s.bind.get r ≠ none) ∧
    ((s.pin.get r).acq = false →
      (s.pin.get r).dir = .input ∧ (s.pin.get r).hnd = false ∧ (s.pin.get r).lvl = none)

/-- spec/10_state.md R37, R40: from PinsAcquired to Operational the acquired roles are exactly the active ones, but for a
running CLOSE; and a line is written only by SEND or BL in Operational, or by BRINGUP in PinsAcquired. -/
def Obligations.TransmissionsRunOnAcquiredPins : Prop :=
  ∀ s : State, Invariant s →
    (s.phase = .pinsAcquired ∨ s.phase = .controllerBroughtUp ∨ s.phase = .operational →
      s.busy = false ∨ stepCommand s ≠ some .close → ∀ r, (s.pin.get r).acq = s.active.get r) ∧
    (∀ (t : State) (w : Word16) (x : Nat), step s = .next t → t.trace = s.trace ++ [(w, x)] →
      isWriteWord w = true ∨ isDelayWord w = true →
      (stepCommand s = some .bringup ∧ s.phase = .pinsAcquired) ∨
      (((∃ tgt mode v, stepCommand s = some (.send tgt mode v)) ∨ ∃ b, stepCommand s = some (.bl b)) ∧
        s.phase = .operational))

/-- spec/20_memory.md R54 (c), R55 (a): in every reachable state active roles have distinct ids, and the stamps of TRACE rise
and are not after NOW. -/
def Obligations.ReachableIdsDistinctAndStampsRise : Prop :=
  ∀ s : State, Reachable s →
    (∀ r q, r ≠ q → s.active.get r = true → s.active.get q = true → s.bind.get r ≠ s.bind.get q) ∧
    s.trace.Pairwise (fun a b => a.2 ≤ b.2) ∧ ∀ x ∈ s.trace, x.2 ≤ s.now

/-! ### Whole runs -/

/-- spec/70_reset_and_hazards.md R144, spec/42_lifecycle.md R112: every run of an instance whose host has finitely many moves
ends, within 102 steps a move, whatever the draws. The host as a list of moves is notes/assumptions/9.md. -/
def Obligations.EveryRunEnds : Prop :=
  ∀ (params : Params) (inputs : Inputs) (host : List HostMove) (script : List Draw) (ix : Nat),
    ∃ n t, RunEnds (instanceOf params inputs host script ix) n t ∧ n ≤ 102 * host.length

/-- spec/70_reset_and_hazards.md R144, spec/60_exceptions.md R120: a run that is clean at its end had no fault at any step:
FAULT stayed at its reset value, every response was 0x00, and the block was never Failed. -/
def Obligations.CleanRunsHaveNoFault : Prop :=
  ∀ (params : Params) (inputs : Inputs) (host : List HostMove) (script : List Draw) (ix n : Nat) (t : State),
    CleanRun (instanceOf params inputs host script ix) n t →
    ∀ k, k ≤ n → ∃ u, run k (instanceOf params inputs host script ix) = .next u ∧
      u.fault = { valid := false, code := 0, role := none, id := none, cmd := 0x0000 } ∧ u.resp = 0x00 ∧
      u.phase ≠ .failed

/-- spec/41_transmission.md R93 with R144's premise: at the end of a clean run every latch of either controller stands at a
falling-edge word of its enable, one for each, and every one of them is well-timed(P_T_HOLD), whatever is stamped later. -/
def Obligations.CleanRunLatchesAreWellTimed : Prop :=
  ∀ (params : Params) (inputs : Inputs) (host : List HostMove) (script : List Draw) (ix n : Nat) (t : State),
    CleanRun (instanceOf params inputs host script ix) n t →
    ∀ e, e = .en ∨ e = .en2 →
      (latchOf e t).map (·.t) = fallStamps e 0 t.trace ∧ FallsWellTimed params.tHold e 0 t.now t.trace
end

