-- ==== Sys2Proof/Laws/State.lean ====
section
/-! SUPPORT. One lemma per field per update of the shared operations, and the lemmas of the per-role tables. -/

namespace Sys2Proof

/-! ### Per-role tables -/

@[simp] theorem PerRole.get_set_self {α : Type} (m : PerRole α) (r : Role) (a : α) : (m.set r a).get r = a := by
  cases r <;> rfl

theorem PerRole.get_set_ne {α : Type} (m : PerRole α) {r q : Role} (a : α) (h : q ≠ r) :
    (m.set r a).get q = m.get q := by
  cases r <;> cases q <;> first | rfl | exact absurd rfl h

theorem PerRole.get_set {α : Type} (m : PerRole α) (r q : Role) (a : α) :
    (m.set r a).get q = if q = r then a else m.get q := by
  split
  · next h => subst h; simp
  · next h => exact PerRole.get_set_ne m a h

theorem PerRole.ext_get {α : Type} {m n : PerRole α} (h : ∀ r, m.get r = n.get r) : m = n := by
  have a := h .en; have b := h .en2; have c := h .rs; have d := h .d4
  have e := h .d5; have f := h .d6; have g := h .d7; have i := h .bl
  cases m; cases n
  simp_all [PerRole.get]

@[simp] theorem PerRole.set_get {α : Type} (m : PerRole α) (r : Role) : m.set r (m.get r) = m := by
  cases r <;> rfl

@[simp] theorem PerRole.get_ofFn {α : Type} (f : Role → α) (r : Role) : (PerRole.ofFn f).get r = f r := by
  cases r <;> rfl

namespace Machine

@[simp] theorem every_get {α : Type} (a : α) (r : Role) : (every a).get r = a := by
  cases r <;> rfl

/-! ### elapse -/

@[simp] theorem elapse_phase (d : Draw) (s : State) : (elapse d s).phase = s.phase := rfl
@[simp] theorem elapse_cfgNc (d : Draw) (s : State) : (elapse d s).cfgNc = s.cfgNc := rfl
@[simp] theorem elapse_cfgBlp (d : Draw) (s : State) : (elapse d s).cfgBlp = s.cfgBlp := rfl
@[simp] theorem elapse_active (d : Draw) (s : State) : (elapse d s).active = s.active := rfl
@[simp] theorem elapse_bind (d : Draw) (s : State) : (elapse d s).bind = s.bind := rfl
@[simp] theorem elapse_pin (d : Draw) (s : State) : (elapse d s).pin = s.pin := rfl
@[simp] theorem elapse_fault (d : Draw) (s : State) : (elapse d s).fault = s.fault := rfl
@[simp] theorem elapse_resp (d : Draw) (s : State) : (elapse d s).resp = s.resp := rfl
@[simp] theorem elapse_busy (d : Draw) (s : State) : (elapse d s).busy = s.busy := rfl
@[simp] theorem elapse_hooks (d : Draw) (s : State) : (elapse d s).hooks = s.hooks := rfl
@[simp] theorem elapse_trace (d : Draw) (s : State) : (elapse d s).trace = s.trace := rfl
@[simp] theorem elapse_now (d : Draw) (s : State) : (elapse d s).now = s.now + d.dur := rfl
@[simp] theorem elapse_latch1 (d : Draw) (s : State) : (elapse d s).latch1 = s.latch1 := rfl
@[simp] theorem elapse_latch2 (d : Draw) (s : State) : (elapse d s).latch2 = s.latch2 := rfl
@[simp] theorem elapse_cur (d : Draw) (s : State) : (elapse d s).cur = s.cur := rfl
@[simp] theorem elapse_upc (d : Draw) (s : State) : (elapse d s).upc = s.upc := rfl
@[simp] theorem elapse_plan (d : Draw) (s : State) : (elapse d s).plan = s.plan := rfl
@[simp] theorem elapse_stage (d : Draw) (s : State) : (elapse d s).stage = s.stage := rfl
@[simp] theorem elapse_fin (d : Draw) (s : State) : (elapse d s).fin = s.fin := rfl
@[simp] theorem elapse_params (d : Draw) (s : State) : (elapse d s).params = s.params := rfl
@[simp] theorem elapse_inputs (d : Draw) (s : State) : (elapse d s).inputs = s.inputs := rfl
@[simp] theorem elapse_host (d : Draw) (s : State) : (elapse d s).host = s.host := rfl
@[simp] theorem elapse_script (d : Draw) (s : State) : (elapse d s).script = s.script.tail := rfl
@[simp] theorem elapse_drawIx (d : Draw) (s : State) : (elapse d s).drawIx = s.drawIx + 1 := rfl

/-! ### emit -/

@[simp] theorem emit_phase (w : Word16) (s : State) : (emit w s).phase = s.phase := rfl
@[simp] theorem emit_cfgNc (w : Word16) (s : State) : (emit w s).cfgNc = s.cfgNc := rfl
@[simp] theorem emit_cfgBlp (w : Word16) (s : State) : (emit w s).cfgBlp = s.cfgBlp := rfl
@[simp] theorem emit_active (w : Word16) (s : State) : (emit w s).active = s.active := rfl
@[simp] theorem emit_bind (w : Word16) (s : State) : (emit w s).bind = s.bind := rfl
@[simp] theorem emit_pin (w : Word16) (s : State) : (emit w s).pin = s.pin := rfl
@[simp] theorem emit_fault (w : Word16) (s : State) : (emit w s).fault = s.fault := rfl
@[simp] theorem emit_resp (w : Word16) (s : State) : (emit w s).resp = s.resp := rfl
@[simp] theorem emit_busy (w : Word16) (s : State) : (emit w s).busy = s.busy := rfl
@[simp] theorem emit_hooks (w : Word16) (s : State) : (emit w s).hooks = s.hooks := rfl
@[simp] theorem emit_trace (w : Word16) (s : State) : (emit w s).trace = s.trace ++ [(w, s.now)] := rfl
@[simp] theorem emit_now (w : Word16) (s : State) : (emit w s).now = s.now := rfl
@[simp] theorem emit_latch1 (w : Word16) (s : State) : (emit w s).latch1 = s.latch1 := rfl
@[simp] theorem emit_latch2 (w : Word16) (s : State) : (emit w s).latch2 = s.latch2 := rfl
@[simp] theorem emit_cur (w : Word16) (s : State) : (emit w s).cur = s.cur := rfl
@[simp] theorem emit_upc (w : Word16) (s : State) : (emit w s).upc = s.upc := rfl
@[simp] theorem emit_plan (w : Word16) (s : State) : (emit w s).plan = s.plan := rfl
@[simp] theorem emit_stage (w : Word16) (s : State) : (emit w s).stage = s.stage := rfl
@[simp] theorem emit_fin (w : Word16) (s : State) : (emit w s).fin = s.fin := rfl
@[simp] theorem emit_params (w : Word16) (s : State) : (emit w s).params = s.params := rfl
@[simp] theorem emit_inputs (w : Word16) (s : State) : (emit w s).inputs = s.inputs := rfl
@[simp] theorem emit_host (w : Word16) (s : State) : (emit w s).host = s.host := rfl
@[simp] theorem emit_script (w : Word16) (s : State) : (emit w s).script = s.script := rfl
@[simp] theorem emit_drawIx (w : Word16) (s : State) : (emit w s).drawIx = s.drawIx := rfl

/-! ### sleepBound -/

@[simp] theorem sleepBound_phase (b : Nat) (s : State) : (sleepBound b s).phase = s.phase := rfl
@[simp] theorem sleepBound_cfgNc (b : Nat) (s : State) : (sleepBound b s).cfgNc = s.cfgNc := rfl
@[simp] theorem sleepBound_cfgBlp (b : Nat) (s : State) : (sleepBound b s).cfgBlp = s.cfgBlp := rfl
@[simp] theorem sleepBound_active (b : Nat) (s : State) : (sleepBound b s).active = s.active := rfl
@[simp] theorem sleepBound_bind (b : Nat) (s : State) : (sleepBound b s).bind = s.bind := rfl
@[simp] theorem sleepBound_pin (b : Nat) (s : State) : (sleepBound b s).pin = s.pin := rfl
@[simp] theorem sleepBound_fault (b : Nat) (s : State) : (sleepBound b s).fault = s.fault := rfl
@[simp] theorem sleepBound_resp (b : Nat) (s : State) : (sleepBound b s).resp = s.resp := rfl
@[simp] theorem sleepBound_busy (b : Nat) (s : State) : (sleepBound b s).busy = s.busy := rfl
@[simp] theorem sleepBound_hooks (b : Nat) (s : State) : (sleepBound b s).hooks = s.hooks := rfl
@[simp] theorem sleepBound_trace (b : Nat) (s : State) : (sleepBound b s).trace = s.trace := rfl
@[simp] theorem sleepBound_now (b : Nat) (s : State) : (sleepBound b s).now = s.now + b := rfl
@[simp] theorem sleepBound_latch1 (b : Nat) (s : State) : (sleepBound b s).latch1 = s.latch1 := rfl
@[simp] theorem sleepBound_latch2 (b : Nat) (s : State) : (sleepBound b s).latch2 = s.latch2 := rfl
@[simp] theorem sleepBound_cur (b : Nat) (s : State) : (sleepBound b s).cur = s.cur := rfl
@[simp] theorem sleepBound_upc (b : Nat) (s : State) : (sleepBound b s).upc = s.upc := rfl
@[simp] theorem sleepBound_plan (b : Nat) (s : State) : (sleepBound b s).plan = s.plan := rfl
@[simp] theorem sleepBound_stage (b : Nat) (s : State) : (sleepBound b s).stage = s.stage := rfl
@[simp] theorem sleepBound_fin (b : Nat) (s : State) : (sleepBound b s).fin = s.fin := rfl
@[simp] theorem sleepBound_params (b : Nat) (s : State) : (sleepBound b s).params = s.params := rfl
@[simp] theorem sleepBound_inputs (b : Nat) (s : State) : (sleepBound b s).inputs = s.inputs := rfl
@[simp] theorem sleepBound_host (b : Nat) (s : State) : (sleepBound b s).host = s.host := rfl
@[simp] theorem sleepBound_script (b : Nat) (s : State) : (sleepBound b s).script = s.script := rfl
@[simp] theorem sleepBound_drawIx (b : Nat) (s : State) : (sleepBound b s).drawIx = s.drawIx := rfl

/-! ### setPin -/

@[simp] theorem setPin_phase (r : Role) (p : Pin) (s : State) : (setPin r p s).phase = s.phase := rfl
@[simp] theorem setPin_cfgNc (r : Role) (p : Pin) (s : State) : (setPin r p s).cfgNc = s.cfgNc := rfl
@[simp] theorem setPin_cfgBlp (r : Role) (p : Pin) (s : State) : (setPin r p s).cfgBlp = s.cfgBlp := rfl
@[simp] theorem setPin_active (r : Role) (p : Pin) (s : State) : (setPin r p s).active = s.active := rfl
@[simp] theorem setPin_bind (r : Role) (p : Pin) (s : State) : (setPin r p s).bind = s.bind := rfl
@[simp] theorem setPin_pin (r : Role) (p : Pin) (s : State) : (setPin r p s).pin = s.pin.set r p := rfl
@[simp] theorem setPin_fault (r : Role) (p : Pin) (s : State) : (setPin r p s).fault = s.fault := rfl
@[simp] theorem setPin_resp (r : Role) (p : Pin) (s : State) : (setPin r p s).resp = s.resp := rfl
@[simp] theorem setPin_busy (r : Role) (p : Pin) (s : State) : (setPin r p s).busy = s.busy := rfl
@[simp] theorem setPin_hooks (r : Role) (p : Pin) (s : State) : (setPin r p s).hooks = s.hooks := rfl
@[simp] theorem setPin_trace (r : Role) (p : Pin) (s : State) : (setPin r p s).trace = s.trace := rfl
@[simp] theorem setPin_now (r : Role) (p : Pin) (s : State) : (setPin r p s).now = s.now := rfl
@[simp] theorem setPin_latch1 (r : Role) (p : Pin) (s : State) : (setPin r p s).latch1 = s.latch1 := rfl
@[simp] theorem setPin_latch2 (r : Role) (p : Pin) (s : State) : (setPin r p s).latch2 = s.latch2 := rfl
@[simp] theorem setPin_cur (r : Role) (p : Pin) (s : State) : (setPin r p s).cur = s.cur := rfl
@[simp] theorem setPin_upc (r : Role) (p : Pin) (s : State) : (setPin r p s).upc = s.upc := rfl
@[simp] theorem setPin_plan (r : Role) (p : Pin) (s : State) : (setPin r p s).plan = s.plan := rfl
@[simp] theorem setPin_stage (r : Role) (p : Pin) (s : State) : (setPin r p s).stage = s.stage := rfl
@[simp] theorem setPin_fin (r : Role) (p : Pin) (s : State) : (setPin r p s).fin = s.fin := rfl
@[simp] theorem setPin_params (r : Role) (p : Pin) (s : State) : (setPin r p s).params = s.params := rfl
@[simp] theorem setPin_inputs (r : Role) (p : Pin) (s : State) : (setPin r p s).inputs = s.inputs := rfl
@[simp] theorem setPin_host (r : Role) (p : Pin) (s : State) : (setPin r p s).host = s.host := rfl
@[simp] theorem setPin_script (r : Role) (p : Pin) (s : State) : (setPin r p s).script = s.script := rfl
@[simp] theorem setPin_drawIx (r : Role) (p : Pin) (s : State) : (setPin r p s).drawIx = s.drawIx := rfl

/-! ### setLvl -/

@[simp] theorem setLvl_phase (r : Role) (l : Option Bool) (s : State) : (setLvl r l s).phase = s.phase := rfl
@[simp] theorem setLvl_cfgNc (r : Role) (l : Option Bool) (s : State) : (setLvl r l s).cfgNc = s.cfgNc := rfl
@[simp] theorem setLvl_cfgBlp (r : Role) (l : Option Bool) (s : State) : (setLvl r l s).cfgBlp = s.cfgBlp := rfl
@[simp] theorem setLvl_active (r : Role) (l : Option Bool) (s : State) : (setLvl r l s).active = s.active := rfl
@[simp] theorem setLvl_bind (r : Role) (l : Option Bool) (s : State) : (setLvl r l s).bind = s.bind := rfl
@[simp] theorem setLvl_pin (r : Role) (l : Option Bool) (s : State) : (setLvl r l s).pin = s.pin.set r { s.pin.get r with lvl := l } := rfl
@[simp] theorem setLvl_fault (r : Role) (l : Option Bool) (s : State) : (setLvl r l s).fault = s.fault := rfl
@[simp] theorem setLvl_resp (r : Role) (l : Option Bool) (s : State) : (setLvl r l s).resp = s.resp := rfl
@[simp] theorem setLvl_busy (r : Role) (l : Option Bool) (s : State) : (setLvl r l s).busy = s.busy := rfl
@[simp] theorem setLvl_hooks (r : Role) (l : Option Bool) (s : State) : (setLvl r l s).hooks = s.hooks := rfl
@[simp] theorem setLvl_trace (r : Role) (l : Option Bool) (s : State) : (setLvl r l s).trace = s.trace := rfl
@[simp] theorem setLvl_now (r : Role) (l : Option Bool) (s : State) : (setLvl r l s).now = s.now := rfl
@[simp] theorem setLvl_latch1 (r : Role) (l : Option Bool) (s : State) : (setLvl r l s).latch1 = s.latch1 := rfl
@[simp] theorem setLvl_latch2 (r : Role) (l : Option Bool) (s : State) : (setLvl r l s).latch2 = s.latch2 := rfl
@[simp] theorem setLvl_cur (r : Role) (l : Option Bool) (s : State) : (setLvl r l s).cur = s.cur := rfl
@[simp] theorem setLvl_upc (r : Role) (l : Option Bool) (s : State) : (setLvl r l s).upc = s.upc := rfl
@[simp] theorem setLvl_plan (r : Role) (l : Option Bool) (s : State) : (setLvl r l s).plan = s.plan := rfl
@[simp] theorem setLvl_stage (r : Role) (l : Option Bool) (s : State) : (setLvl r l s).stage = s.stage := rfl
@[simp] theorem setLvl_fin (r : Role) (l : Option Bool) (s : State) : (setLvl r l s).fin = s.fin := rfl
@[simp] theorem setLvl_params (r : Role) (l : Option Bool) (s : State) : (setLvl r l s).params = s.params := rfl
@[simp] theorem setLvl_inputs (r : Role) (l : Option Bool) (s : State) : (setLvl r l s).inputs = s.inputs := rfl
@[simp] theorem setLvl_host (r : Role) (l : Option Bool) (s : State) : (setLvl r l s).host = s.host := rfl
@[simp] theorem setLvl_script (r : Role) (l : Option Bool) (s : State) : (setLvl r l s).script = s.script := rfl
@[simp] theorem setLvl_drawIx (r : Role) (l : Option Bool) (s : State) : (setLvl r l s).drawIx = s.drawIx := rfl

/-! ### endCommand -/

@[simp] theorem endCommand_phase (b : Byte) (s : State) : (endCommand b s).phase = s.phase := rfl
@[simp] theorem endCommand_cfgNc (b : Byte) (s : State) : (endCommand b s).cfgNc = s.cfgNc := rfl
@[simp] theorem endCommand_cfgBlp (b : Byte) (s : State) : (endCommand b s).cfgBlp = s.cfgBlp := rfl
@[simp] theorem endCommand_active (b : Byte) (s : State) : (endCommand b s).active = s.active := rfl
@[simp] theorem endCommand_bind (b : Byte) (s : State) : (endCommand b s).bind = s.bind := rfl
@[simp] theorem endCommand_pin (b : Byte) (s : State) : (endCommand b s).pin = s.pin := rfl
@[simp] theorem endCommand_fault (b : Byte) (s : State) : (endCommand b s).fault = s.fault := rfl
@[simp] theorem endCommand_resp (b : Byte) (s : State) : (endCommand b s).resp = b := rfl
@[simp] theorem endCommand_busy (b : Byte) (s : State) : (endCommand b s).busy = false := rfl
@[simp] theorem endCommand_hooks (b : Byte) (s : State) : (endCommand b s).hooks = s.hooks := rfl
@[simp] theorem endCommand_trace (b : Byte) (s : State) : (endCommand b s).trace = s.trace := rfl
@[simp] theorem endCommand_now (b : Byte) (s : State) : (endCommand b s).now = s.now := rfl
@[simp] theorem endCommand_latch1 (b : Byte) (s : State) : (endCommand b s).latch1 = s.latch1 := rfl
@[simp] theorem endCommand_latch2 (b : Byte) (s : State) : (endCommand b s).latch2 = s.latch2 := rfl
@[simp] theorem endCommand_cur (b : Byte) (s : State) : (endCommand b s).cur = none := rfl
@[simp] theorem endCommand_upc (b : Byte) (s : State) : (endCommand b s).upc = 0 := rfl
@[simp] theorem endCommand_plan (b : Byte) (s : State) : (endCommand b s).plan = [] := rfl
@[simp] theorem endCommand_stage (b : Byte) (s : State) : (endCommand b s).stage = 0 := rfl
@[simp] theorem endCommand_fin (b : Byte) (s : State) : (endCommand b s).fin = .done := rfl
@[simp] theorem endCommand_params (b : Byte) (s : State) : (endCommand b s).params = s.params := rfl
@[simp] theorem endCommand_inputs (b : Byte) (s : State) : (endCommand b s).inputs = s.inputs := rfl
@[simp] theorem endCommand_host (b : Byte) (s : State) : (endCommand b s).host = s.host := rfl
@[simp] theorem endCommand_script (b : Byte) (s : State) : (endCommand b s).script = s.script := rfl
@[simp] theorem endCommand_drawIx (b : Byte) (s : State) : (endCommand b s).drawIx = s.drawIx := rfl

/-! ### raise -/

@[simp] theorem raise_phase (c : FaultCode) (role : Option Role) (id : Option Nat) (s : State) : (raise c role id s).phase = if s.phase = .released then .released else .failed := rfl
@[simp] theorem raise_cfgNc (c : FaultCode) (role : Option Role) (id : Option Nat) (s : State) : (raise c role id s).cfgNc = s.cfgNc := rfl
@[simp] theorem raise_cfgBlp (c : FaultCode) (role : Option Role) (id : Option Nat) (s : State) : (raise c role id s).cfgBlp = s.cfgBlp := rfl
@[simp] theorem raise_active (c : FaultCode) (role : Option Role) (id : Option Nat) (s : State) : (raise c role id s).active = s.active := rfl
@[simp] theorem raise_bind (c : FaultCode) (role : Option Role) (id : Option Nat) (s : State) : (raise c role id s).bind = s.bind := rfl
@[simp] theorem raise_pin (c : FaultCode) (role : Option Role) (id : Option Nat) (s : State) : (raise c role id s).pin = s.pin := rfl
@[simp] theorem raise_fault (c : FaultCode) (role : Option Role) (id : Option Nat) (s : State) : (raise c role id s).fault = recordFault c role id s := rfl
@[simp] theorem raise_resp (c : FaultCode) (role : Option Role) (id : Option Nat) (s : State) : (raise c role id s).resp = respFault c := rfl
@[simp] theorem raise_busy (c : FaultCode) (role : Option Role) (id : Option Nat) (s : State) : (raise c role id s).busy = false := rfl
@[simp] theorem raise_hooks (c : FaultCode) (role : Option Role) (id : Option Nat) (s : State) : (raise c role id s).hooks = s.hooks := rfl
@[simp] theorem raise_trace (c : FaultCode) (role : Option Role) (id : Option Nat) (s : State) : (raise c role id s).trace = s.trace := rfl
@[simp] theorem raise_now (c : FaultCode) (role : Option Role) (id : Option Nat) (s : State) : (raise c role id s).now = s.now := rfl
@[simp] theorem raise_latch1 (c : FaultCode) (role : Option Role) (id : Option Nat) (s : State) : (raise c role id s).latch1 = s.latch1 := rfl
@[simp] theorem raise_latch2 (c : FaultCode) (role : Option Role) (id : Option Nat) (s : State) : (raise c role id s).latch2 = s.latch2 := rfl
@[simp] theorem raise_cur (c : FaultCode) (role : Option Role) (id : Option Nat) (s : State) : (raise c role id s).cur = none := rfl
@[simp] theorem raise_upc (c : FaultCode) (role : Option Role) (id : Option Nat) (s : State) : (raise c role id s).upc = 0 := rfl
@[simp] theorem raise_plan (c : FaultCode) (role : Option Role) (id : Option Nat) (s : State) : (raise c role id s).plan = [] := rfl
@[simp] theorem raise_stage (c : FaultCode) (role : Option Role) (id : Option Nat) (s : State) : (raise c role id s).stage = 0 := rfl
@[simp] theorem raise_fin (c : FaultCode) (role : Option Role) (id : Option Nat) (s : State) : (raise c role id s).fin = .done := rfl
@[simp] theorem raise_params (c : FaultCode) (role : Option Role) (id : Option Nat) (s : State) : (raise c role id s).params = s.params := rfl
@[simp] theorem raise_inputs (c : FaultCode) (role : Option Role) (id : Option Nat) (s : State) : (raise c role id s).inputs = s.inputs := rfl
@[simp] theorem raise_host (c : FaultCode) (role : Option Role) (id : Option Nat) (s : State) : (raise c role id s).host = s.host := rfl
@[simp] theorem raise_script (c : FaultCode) (role : Option Role) (id : Option Nat) (s : State) : (raise c role id s).script = s.script := rfl
@[simp] theorem raise_drawIx (c : FaultCode) (role : Option Role) (id : Option Nat) (s : State) : (raise c role id s).drawIx = s.drawIx := rfl

/-! ### nextStage -/

@[simp] theorem nextStage_phase (s : State) : (nextStage s).phase = s.phase := rfl
@[simp] theorem nextStage_cfgNc (s : State) : (nextStage s).cfgNc = s.cfgNc := rfl
@[simp] theorem nextStage_cfgBlp (s : State) : (nextStage s).cfgBlp = s.cfgBlp := rfl
@[simp] theorem nextStage_active (s : State) : (nextStage s).active = s.active := rfl
@[simp] theorem nextStage_bind (s : State) : (nextStage s).bind = s.bind := rfl
@[simp] theorem nextStage_pin (s : State) : (nextStage s).pin = s.pin := rfl
@[simp] theorem nextStage_fault (s : State) : (nextStage s).fault = s.fault := rfl
@[simp] theorem nextStage_resp (s : State) : (nextStage s).resp = s.resp := rfl
@[simp] theorem nextStage_busy (s : State) : (nextStage s).busy = s.busy := rfl
@[simp] theorem nextStage_hooks (s : State) : (nextStage s).hooks = s.hooks := rfl
@[simp] theorem nextStage_trace (s : State) : (nextStage s).trace = s.trace := rfl
@[simp] theorem nextStage_now (s : State) : (nextStage s).now = s.now := rfl
@[simp] theorem nextStage_latch1 (s : State) : (nextStage s).latch1 = s.latch1 := rfl
@[simp] theorem nextStage_latch2 (s : State) : (nextStage s).latch2 = s.latch2 := rfl
@[simp] theorem nextStage_cur (s : State) : (nextStage s).cur = s.cur := rfl
@[simp] theorem nextStage_upc (s : State) : (nextStage s).upc = s.upc + 1 := rfl
@[simp] theorem nextStage_plan (s : State) : (nextStage s).plan = s.plan := rfl
@[simp] theorem nextStage_stage (s : State) : (nextStage s).stage = s.stage + 1 := rfl
@[simp] theorem nextStage_fin (s : State) : (nextStage s).fin = s.fin := rfl
@[simp] theorem nextStage_params (s : State) : (nextStage s).params = s.params := rfl
@[simp] theorem nextStage_inputs (s : State) : (nextStage s).inputs = s.inputs := rfl
@[simp] theorem nextStage_host (s : State) : (nextStage s).host = s.host := rfl
@[simp] theorem nextStage_script (s : State) : (nextStage s).script = s.script := rfl
@[simp] theorem nextStage_drawIx (s : State) : (nextStage s).drawIx = s.drawIx := rfl

/-! ### accepted -/

@[simp] theorem accepted_phase (w : Word16) (s : State) : (accepted w s).phase = s.phase := rfl
@[simp] theorem accepted_cfgNc (w : Word16) (s : State) : (accepted w s).cfgNc = s.cfgNc := rfl
@[simp] theorem accepted_cfgBlp (w : Word16) (s : State) : (accepted w s).cfgBlp = s.cfgBlp := rfl
@[simp] theorem accepted_active (w : Word16) (s : State) : (accepted w s).active = s.active := rfl
@[simp] theorem accepted_bind (w : Word16) (s : State) : (accepted w s).bind = s.bind := rfl
@[simp] theorem accepted_pin (w : Word16) (s : State) : (accepted w s).pin = s.pin := rfl
@[simp] theorem accepted_fault (w : Word16) (s : State) : (accepted w s).fault = s.fault := rfl
@[simp] theorem accepted_resp (w : Word16) (s : State) : (accepted w s).resp = s.resp := rfl
@[simp] theorem accepted_busy (w : Word16) (s : State) : (accepted w s).busy = true := rfl
@[simp] theorem accepted_hooks (w : Word16) (s : State) : (accepted w s).hooks = s.hooks := rfl
@[simp] theorem accepted_trace (w : Word16) (s : State) : (accepted w s).trace = s.trace := rfl
@[simp] theorem accepted_now (w : Word16) (s : State) : (accepted w s).now = s.now := rfl
@[simp] theorem accepted_latch1 (w : Word16) (s : State) : (accepted w s).latch1 = s.latch1 := rfl
@[simp] theorem accepted_latch2 (w : Word16) (s : State) : (accepted w s).latch2 = s.latch2 := rfl
@[simp] theorem accepted_cur (w : Word16) (s : State) : (accepted w s).cur = some w := rfl
@[simp] theorem accepted_upc (w : Word16) (s : State) : (accepted w s).upc = 0 := rfl
@[simp] theorem accepted_plan (w : Word16) (s : State) : (accepted w s).plan = s.plan := rfl
@[simp] theorem accepted_stage (w : Word16) (s : State) : (accepted w s).stage = s.stage := rfl
@[simp] theorem accepted_fin (w : Word16) (s : State) : (accepted w s).fin = s.fin := rfl
@[simp] theorem accepted_params (w : Word16) (s : State) : (accepted w s).params = s.params := rfl
@[simp] theorem accepted_inputs (w : Word16) (s : State) : (accepted w s).inputs = s.inputs := rfl
@[simp] theorem accepted_host (w : Word16) (s : State) : (accepted w s).host = s.host := rfl
@[simp] theorem accepted_script (w : Word16) (s : State) : (accepted w s).script = s.script := rfl
@[simp] theorem accepted_drawIx (w : Word16) (s : State) : (accepted w s).drawIx = s.drawIx := rfl

/-! ### freeBinding -/

@[simp] theorem freeBinding_phase (s : State) : (freeBinding s).phase = .released := rfl
@[simp] theorem freeBinding_cfgNc (s : State) : (freeBinding s).cfgNc = none := rfl
@[simp] theorem freeBinding_cfgBlp (s : State) : (freeBinding s).cfgBlp = none := rfl
@[simp] theorem freeBinding_active (s : State) : (freeBinding s).active = every false := rfl
@[simp] theorem freeBinding_bind (s : State) : (freeBinding s).bind = every none := rfl
@[simp] theorem freeBinding_pin (s : State) : (freeBinding s).pin = s.pin := rfl
@[simp] theorem freeBinding_fault (s : State) : (freeBinding s).fault = s.fault := rfl
@[simp] theorem freeBinding_resp (s : State) : (freeBinding s).resp = s.resp := rfl
@[simp] theorem freeBinding_busy (s : State) : (freeBinding s).busy = s.busy := rfl
@[simp] theorem freeBinding_hooks (s : State) : (freeBinding s).hooks = 0b00 := rfl
@[simp] theorem freeBinding_trace (s : State) : (freeBinding s).trace = s.trace := rfl
@[simp] theorem freeBinding_now (s : State) : (freeBinding s).now = s.now := rfl
@[simp] theorem freeBinding_latch1 (s : State) : (freeBinding s).latch1 = s.latch1 := rfl
@[simp] theorem freeBinding_latch2 (s : State) : (freeBinding s).latch2 = s.latch2 := rfl
@[simp] theorem freeBinding_cur (s : State) : (freeBinding s).cur = s.cur := rfl
@[simp] theorem freeBinding_upc (s : State) : (freeBinding s).upc = s.upc := rfl
@[simp] theorem freeBinding_plan (s : State) : (freeBinding s).plan = s.plan := rfl
@[simp] theorem freeBinding_stage (s : State) : (freeBinding s).stage = s.stage := rfl
@[simp] theorem freeBinding_fin (s : State) : (freeBinding s).fin = s.fin := rfl
@[simp] theorem freeBinding_params (s : State) : (freeBinding s).params = s.params := rfl
@[simp] theorem freeBinding_inputs (s : State) : (freeBinding s).inputs = s.inputs := rfl
@[simp] theorem freeBinding_host (s : State) : (freeBinding s).host = s.host := rfl
@[simp] theorem freeBinding_script (s : State) : (freeBinding s).script = s.script := rfl
@[simp] theorem freeBinding_drawIx (s : State) : (freeBinding s).drawIx = s.drawIx := rfl

/-! ### The controller observer writes LATCH only -/

@[simp] theorem appendLatch_phase (r : Role) (l : LatchRec) (s : State) : (appendLatch r l s).phase = s.phase := by
  cases r <;> rfl
@[simp] theorem appendLatch_cfgNc (r : Role) (l : LatchRec) (s : State) : (appendLatch r l s).cfgNc = s.cfgNc := by
  cases r <;> rfl
@[simp] theorem appendLatch_cfgBlp (r : Role) (l : LatchRec) (s : State) : (appendLatch r l s).cfgBlp = s.cfgBlp := by
  cases r <;> rfl
@[simp] theorem appendLatch_active (r : Role) (l : LatchRec) (s : State) : (appendLatch r l s).active = s.active := by
  cases r <;> rfl
@[simp] theorem appendLatch_bind (r : Role) (l : LatchRec) (s : State) : (appendLatch r l s).bind = s.bind := by
  cases r <;> rfl
@[simp] theorem appendLatch_pin (r : Role) (l : LatchRec) (s : State) : (appendLatch r l s).pin = s.pin := by
  cases r <;> rfl
@[simp] theorem appendLatch_fault (r : Role) (l : LatchRec) (s : State) : (appendLatch r l s).fault = s.fault := by
  cases r <;> rfl
@[simp] theorem appendLatch_resp (r : Role) (l : LatchRec) (s : State) : (appendLatch r l s).resp = s.resp := by
  cases r <;> rfl
@[simp] theorem appendLatch_busy (r : Role) (l : LatchRec) (s : State) : (appendLatch r l s).busy = s.busy := by
  cases r <;> rfl
@[simp] theorem appendLatch_hooks (r : Role) (l : LatchRec) (s : State) : (appendLatch r l s).hooks = s.hooks := by
  cases r <;> rfl
@[simp] theorem appendLatch_trace (r : Role) (l : LatchRec) (s : State) : (appendLatch r l s).trace = s.trace := by
  cases r <;> rfl
@[simp] theorem appendLatch_now (r : Role) (l : LatchRec) (s : State) : (appendLatch r l s).now = s.now := by
  cases r <;> rfl
@[simp] theorem appendLatch_cur (r : Role) (l : LatchRec) (s : State) : (appendLatch r l s).cur = s.cur := by
  cases r <;> rfl
@[simp] theorem appendLatch_upc (r : Role) (l : LatchRec) (s : State) : (appendLatch r l s).upc = s.upc := by
  cases r <;> rfl
@[simp] theorem appendLatch_plan (r : Role) (l : LatchRec) (s : State) : (appendLatch r l s).plan = s.plan := by
  cases r <;> rfl
@[simp] theorem appendLatch_stage (r : Role) (l : LatchRec) (s : State) : (appendLatch r l s).stage = s.stage := by
  cases r <;> rfl
@[simp] theorem appendLatch_fin (r : Role) (l : LatchRec) (s : State) : (appendLatch r l s).fin = s.fin := by
  cases r <;> rfl
@[simp] theorem appendLatch_params (r : Role) (l : LatchRec) (s : State) : (appendLatch r l s).params = s.params := by
  cases r <;> rfl
@[simp] theorem appendLatch_inputs (r : Role) (l : LatchRec) (s : State) : (appendLatch r l s).inputs = s.inputs := by
  cases r <;> rfl
@[simp] theorem appendLatch_host (r : Role) (l : LatchRec) (s : State) : (appendLatch r l s).host = s.host := by
  cases r <;> rfl
@[simp] theorem appendLatch_script (r : Role) (l : LatchRec) (s : State) : (appendLatch r l s).script = s.script := by
  cases r <;> rfl
@[simp] theorem appendLatch_drawIx (r : Role) (l : LatchRec) (s : State) : (appendLatch r l s).drawIx = s.drawIx := by
  cases r <;> rfl

@[simp] theorem observe_phase (r : Role) (e : Edge) (d : Draw) (s : State) : (observe r e d s).phase = s.phase := by
  cases e <;> simp only [observe] <;> (try split) <;> simp
@[simp] theorem observe_cfgNc (r : Role) (e : Edge) (d : Draw) (s : State) : (observe r e d s).cfgNc = s.cfgNc := by
  cases e <;> simp only [observe] <;> (try split) <;> simp
@[simp] theorem observe_cfgBlp (r : Role) (e : Edge) (d : Draw) (s : State) : (observe r e d s).cfgBlp = s.cfgBlp := by
  cases e <;> simp only [observe] <;> (try split) <;> simp
@[simp] theorem observe_active (r : Role) (e : Edge) (d : Draw) (s : State) : (observe r e d s).active = s.active := by
  cases e <;> simp only [observe] <;> (try split) <;> simp
@[simp] theorem observe_bind (r : Role) (e : Edge) (d : Draw) (s : State) : (observe r e d s).bind = s.bind := by
  cases e <;> simp only [observe] <;> (try split) <;> simp
@[simp] theorem observe_pin (r : Role) (e : Edge) (d : Draw) (s : State) : (observe r e d s).pin = s.pin := by
  cases e <;> simp only [observe] <;> (try split) <;> simp
@[simp] theorem observe_fault (r : Role) (e : Edge) (d : Draw) (s : State) : (observe r e d s).fault = s.fault := by
  cases e <;> simp only [observe] <;> (try split) <;> simp
@[simp] theorem observe_resp (r : Role) (e : Edge) (d : Draw) (s : State) : (observe r e d s).resp = s.resp := by
  cases e <;> simp only [observe] <;> (try split) <;> simp
@[simp] theorem observe_busy (r : Role) (e : Edge) (d : Draw) (s : State) : (observe r e d s).busy = s.busy := by
  cases e <;> simp only [observe] <;> (try split) <;> simp
@[simp] theorem observe_hooks (r : Role) (e : Edge) (d : Draw) (s : State) : (observe r e d s).hooks = s.hooks := by
  cases e <;> simp only [observe] <;> (try split) <;> simp
@[simp] theorem observe_trace (r : Role) (e : Edge) (d : Draw) (s : State) : (observe r e d s).trace = s.trace := by
  cases e <;> simp only [observe] <;> (try split) <;> simp
@[simp] theorem observe_now (r : Role) (e : Edge) (d : Draw) (s : State) : (observe r e d s).now = s.now := by
  cases e <;> simp only [observe] <;> (try split) <;> simp
@[simp] theorem observe_cur (r : Role) (e : Edge) (d : Draw) (s : State) : (observe r e d s).cur = s.cur := by
  cases e <;> simp only [observe] <;> (try split) <;> simp
@[simp] theorem observe_upc (r : Role) (e : Edge) (d : Draw) (s : State) : (observe r e d s).upc = s.upc := by
  cases e <;> simp only [observe] <;> (try split) <;> simp
@[simp] theorem observe_plan (r : Role) (e : Edge) (d : Draw) (s : State) : (observe r e d s).plan = s.plan := by
  cases e <;> simp only [observe] <;> (try split) <;> simp
@[simp] theorem observe_stage (r : Role) (e : Edge) (d : Draw) (s : State) : (observe r e d s).stage = s.stage := by
  cases e <;> simp only [observe] <;> (try split) <;> simp
@[simp] theorem observe_fin (r : Role) (e : Edge) (d : Draw) (s : State) : (observe r e d s).fin = s.fin := by
  cases e <;> simp only [observe] <;> (try split) <;> simp
@[simp] theorem observe_params (r : Role) (e : Edge) (d : Draw) (s : State) : (observe r e d s).params = s.params := by
  cases e <;> simp only [observe] <;> (try split) <;> simp
@[simp] theorem observe_inputs (r : Role) (e : Edge) (d : Draw) (s : State) : (observe r e d s).inputs = s.inputs := by
  cases e <;> simp only [observe] <;> (try split) <;> simp
@[simp] theorem observe_host (r : Role) (e : Edge) (d : Draw) (s : State) : (observe r e d s).host = s.host := by
  cases e <;> simp only [observe] <;> (try split) <;> simp
@[simp] theorem observe_script (r : Role) (e : Edge) (d : Draw) (s : State) : (observe r e d s).script = s.script := by
  cases e <;> simp only [observe] <;> (try split) <;> simp
@[simp] theorem observe_drawIx (r : Role) (e : Edge) (d : Draw) (s : State) : (observe r e d s).drawIx = s.drawIx := by
  cases e <;> simp only [observe] <;> (try split) <;> simp

end Machine

end Sys2Proof
end

