-- ==== Sys2Proof/Laws/Ops.lean ====
section
/-! SUPPORT. What each shared operation can do, said once: later proofs cite these lemmas and do not unfold the operations. -/

namespace Sys2Proof.Machine

/-! ### Draws -/

/-- This step's draw, when the script supplies it. -/
theorem draw_of_script {s : State} {d : Draw} {ds : List Draw} (h : s.script = d :: ds) : s.draw = d := by
  simp [State.draw, State.drawAt, h]

/-- After a step the next draw is the one that stood second. -/
theorem drawAt_elapse (d : Draw) (s : State) (k : Nat) : (elapse d s).drawAt k = s.drawAt (k + 1) := by
  simp only [State.drawAt, elapse_script, elapse_drawIx]
  cases s.script with
  | nil => simp [Nat.add_assoc, Nat.add_comm 1 k]
  | cons x xs => simp [Nat.add_assoc, Nat.add_comm 1 k]

/-- Draws depend on the script and the draw number only. -/
theorem drawAt_congr {s t : State} (h : t.script = s.script) (h' : t.drawIx = s.drawIx) (k : Nat) :
    t.drawAt k = s.drawAt k := by
  simp [State.drawAt, h, h']

/-! ### The controller observer -/

/-- A record goes to the controller of the enable role, and to no other list (R58). -/
theorem appendLatch_cases (r : Role) (rec : LatchRec) (s : State) :
    (r = .en ∧ appendLatch r rec s = { s with latch1 := s.latch1 ++ [rec] }) ∨
    (r = .en2 ∧ appendLatch r rec s = { s with latch2 := s.latch2 ++ [rec] }) ∨
    (r ≠ .en ∧ r ≠ .en2 ∧ appendLatch r rec s = s) := by
  cases r <;> simp [appendLatch]

theorem appendLatch_latch1_ne {r : Role} (h : r ≠ .en) (rec : LatchRec) (s : State) :
    (appendLatch r rec s).latch1 = s.latch1 := by
  cases r <;> simp_all [appendLatch]

theorem appendLatch_latch2_ne {r : Role} (h : r ≠ .en2) (rec : LatchRec) (s : State) :
    (appendLatch r rec s).latch2 = s.latch2 := by
  cases r <;> simp_all [appendLatch]

/-- What the observer can do at a step: nothing, or append one record with the stamp NOW (R58). -/
theorem observe_cases (r : Role) (e : Edge) (d : Draw) (s : State) :
    ((e = .none ∨ (e = .undefined ∧ d.latches = false)) ∧ observe r e d s = s) ∨
    (e = .falling ∧ observe r e d s = appendLatch r (sampledRecord d s) s) ∨
    (e = .undefined ∧ d.latches = true ∧ observe r e d s = appendLatch r (drawnRecord d s) s) := by
  cases e <;> cases h : d.latches <;> simp [observe, h]

theorem observe_latch1_ne {r : Role} (h : r ≠ .en) (e : Edge) (d : Draw) (s : State) :
    (observe r e d s).latch1 = s.latch1 := by
  rcases observe_cases r e d s with ⟨_, h'⟩ | ⟨_, h'⟩ | ⟨_, _, h'⟩ <;> simp [h', appendLatch_latch1_ne h]

theorem observe_latch2_ne {r : Role} (h : r ≠ .en2) (e : Edge) (d : Draw) (s : State) :
    (observe r e d s).latch2 = s.latch2 := by
  rcases observe_cases r e d s with ⟨_, h'⟩ | ⟨_, h'⟩ | ⟨_, _, h'⟩ <;> simp [h', appendLatch_latch2_ne h]

/-! ### The end of a primitive -/

theorem continueWith_cons (p : Prim) (ps : List Prim) (f : Finish) (s : State) :
    continueWith (p :: ps) f s = { s with plan := p :: ps, fin := f, stage := 0, upc := s.upc + 1 } := rfl

theorem continueWith_nil (f : Finish) (s : State) : continueWith [] f s = finish f s := rfl

/-- A finished primitive with more to come. -/
theorem advance_more {s : State} {p q : Prim} {ps : List Prim} (h : s.plan = p :: q :: ps) :
    advance s = { s with plan := q :: ps, stage := 0, upc := s.upc + 1 } := by
  simp [advance, h, continueWith_cons]

/-- The last primitive finishes the command in the same step. -/
theorem advance_last {s : State} {p : Prim} (h : s.plan = [p]) : advance s = finish s.fin s := by
  simp [advance, h, continueWith_nil]

/-- A finish ends the command. -/
theorem finish_ends (f : Finish) (s : State) :
    (finish f s).busy = false ∧ (finish f s).cur = none ∧ (finish f s).upc = 0 ∧ (finish f s).plan = [] ∧
      (finish f s).stage = 0 ∧ (finish f s).fin = .done := by
  cases f <;> simp [finish]

/-- A finish writes none of the pins, TRACE, LATCH, time, arguments or draws. -/
theorem finish_frame (f : Finish) (s : State) :
    (finish f s).pin = s.pin ∧ (finish f s).trace = s.trace ∧ (finish f s).latch1 = s.latch1 ∧
      (finish f s).latch2 = s.latch2 ∧ (finish f s).now = s.now ∧ (finish f s).params = s.params ∧
      (finish f s).inputs = s.inputs ∧ (finish f s).host = s.host ∧ (finish f s).script = s.script ∧
      (finish f s).drawIx = s.drawIx := by
  cases f <;> simp [finish]

/-! ### The primitives -/

/-- Write(r, b) of an acquired pin whose OS write succeeds (R82). -/
theorem writeStep_ok {r : Role} {d : Draw} {s : State} (b : Bool) (ha : (s.pin.get r).acq = true) (hd : d.writeOk = true) :
    writeStep r b d s =
      advance (setLvl r (some b)
        (observe r (writeEdge (s.pin.get r).lvl b true) d (emit (encode (.uwr r b)) s))) := by
  simp [writeStep, ha, hd]

/-- Write(r, b) of an acquired pin whose OS write fails (R82). -/
theorem writeStep_fails {r : Role} {d : Draw} {s : State} (b : Bool) (ha : (s.pin.get r).acq = true)
    (hd : d.writeOk = false) :
    writeStep r b d s =
      raise .writeFailure (some r) (s.bind.get r)
        (setLvl r none (observe r (writeEdge (s.pin.get r).lvl b false) d (emit (encode (.uwr r b)) s))) := by
  simp [writeStep, ha, hd]

/-- Write(r, b) of a pin that is not acquired (R82). -/
theorem writeStep_unacquired {r : Role} {d : Draw} {s : State} (b : Bool) (ha : (s.pin.get r).acq = false) :
    writeStep r b d s = raise .pinNotAcquired (some r) (s.bind.get r) s := by
  simp [writeStep, ha]

/-- What a write can do: go on, or raise one of two faults. -/
theorem writeStep_cases (r : Role) (b : Bool) (d : Draw) (s : State) :
    ((s.pin.get r).acq = true ∧ d.writeOk = true ∧
      writeStep r b d s = advance (setLvl r (some b)
        (observe r (writeEdge (s.pin.get r).lvl b true) d (emit (encode (.uwr r b)) s)))) ∨
    ((s.pin.get r).acq = true ∧ d.writeOk = false ∧
      writeStep r b d s = raise .writeFailure (some r) (s.bind.get r)
        (setLvl r none (observe r (writeEdge (s.pin.get r).lvl b false) d (emit (encode (.uwr r b)) s)))) ∨
    ((s.pin.get r).acq = false ∧ writeStep r b d s = raise .pinNotAcquired (some r) (s.bind.get r) s) := by
  cases ha : (s.pin.get r).acq
  · exact .inr (.inr ⟨rfl, writeStep_unacquired b ha⟩)
  · cases hd : d.writeOk
    · exact .inr (.inl ⟨rfl, rfl, writeStep_fails b ha hd⟩)
    · exact .inl ⟨rfl, rfl, writeStep_ok b ha hd⟩

/-- What a step of Acquire(r) can do: the next request, the end of Acquire with success, or its failure (R81). -/
theorem acquireStep_cases (r : Role) (d : Draw) (s : State) :
    (s.stage = 0 ∧ d.exportOk = true ∧ acquireStep r d s = nextStage (emit (encode (.uacq r)) s)) ∨
    (s.stage = 0 ∧ d.exportOk = false ∧ acquireStep r d s = acquireFailed r (emit (encode (.uacq r)) s)) ∨
    (s.stage = 1 ∧ d.dirOk = true ∧ acquireStep r d s = nextStage s) ∨
    (2 ≤ s.stage ∧ d.openOk = true ∧ acquireStep r d s = advance (setPin r Pin.acquired s)) ∨
    (1 ≤ s.stage ∧ acquireStep r d s = acquireFailed r s) := by
  rcases hs : s.stage with _ | _ | k
  · cases hd : d.exportOk <;> simp [acquireStep, hs, hd]
  · cases hd : d.dirOk <;> simp [acquireStep, hs, hd]
  · cases hd : d.openOk <;> simp [acquireStep, hs, hd]

/-- What a step of Release(r) can do (R83). -/
theorem releaseStep_cases (r : Role) (d : Draw) (s : State) :
    (s.stage = 0 ∧ (s.pin.get r).acq = true ∧ releaseStep r d s =
      nextStage (observe r (releaseEdge (s.pin.get r).lvl) d (emit (encode (.urel r)) s))) ∨
    (s.stage = 0 ∧ (s.pin.get r).acq = false ∧ releaseStep r d s = advance (emit (encode (.urel r)) s)) ∨
    (s.stage = 1 ∧ releaseStep r d s = nextStage s) ∨
    (2 ≤ s.stage ∧ releaseStep r d s = advance (setPin r Pin.idle s)) := by
  rcases hs : s.stage with _ | _ | k
  · cases ha : (s.pin.get r).acq <;> simp [releaseStep, hs, ha]
  · simp [releaseStep, hs]
  · simp [releaseStep, hs]

/-- A failed Acquire(r): the fault at once, or the first of the unwinding Releases to come (R103, R104). -/
theorem acquireFailed_cases (r : Role) (s : State) :
    (unwindSeq s.params s.active r = [] ∧ acquireFailed r s = raise .pinUnavailable (some r) (s.bind.get r) s) ∨
    ∃ p ps, unwindSeq s.params s.active r = p :: ps ∧
      acquireFailed r s = { s with plan := p :: ps, fin := .unavailable r, stage := 0, upc := s.upc + 1 } := by
  rcases h : unwindSeq s.params s.active r with _ | ⟨p, ps⟩
  · exact .inl ⟨rfl, by simp [acquireFailed, h, continueWith_nil, finish]⟩
  · exact .inr ⟨p, ps, rfl, by simp [acquireFailed, h, continueWith_cons]⟩

/-- A command with primitives takes its first primitive's step; one without finishes (R13, R67). -/
theorem begin_cases (plan : List Prim) (f : Finish) (d : Draw) (s : State) :
    (plan = [] ∧ begin plan f d s = finish f s) ∨
    ∃ p ps, plan = p :: ps ∧ begin plan f d s = primStep p d { s with plan := p :: ps, fin := f, stage := 0 } := by
  cases plan with
  | nil => exact .inl ⟨rfl, rfl⟩
  | cons p ps => exact .inr ⟨p, ps, rfl, rfl⟩

/-! ### Dispatch and the step -/

/-- The own rule of a host command; a trace word has none. -/
def ruleOf (i : Instr) : Draw → State → State :=
  match i with
  | .bind => bindRule
  | .acqall => acqallRule
  | .bringup => bringupRule
  | .start => fun _ => startRule
  | .send tgt mode value => sendRule tgt mode value
  | .bl state => blRule state
  | .close => closeRule
  | .uacq _ => fun _ s => s
  | .uwr _ _ => fun _ s => s
  | .urel _ => fun _ s => s
  | .udly _ => fun _ s => s

/-- A host command runs through dispatch (R67). -/
theorem exec_command {i : Instr} (h : isCommand i = true) (s : State) : exec i s = accept i (ruleOf i) s := by
  cases i <;> first | rfl | simp [isCommand] at h

/-- Dispatch of an idle block (R67). -/
theorem accept_idle {i : Instr} {rule : Draw → State → State} {s : State} (h : s.busy = false) :
    accept i rule s = .next (elapse s.draw
      (if legal i s.phase then rule s.draw (accepted (encode i) s)
        else raise .illegalPhase none none (accepted (encode i) s))) := by
  simp [accept, h, stepOf]

@[simp] theorem ofCode_code (c : DelayClass) : DelayClass.ofCode c.code = some c := by
  cases c <;> rfl

/-- The instruction of a primitive runs that primitive's step. -/
theorem exec_prim (p : Prim) (s : State) : exec p.toInstr s = .next (elapse s.draw (primStep p s.draw s)) := by
  cases p <;> simp [Prim.toInstr, exec, execUacq, execUwr, execUrel, execUdly, stepOf, primStep]

/-- What the port decoder gives is a host command (R69 (b)). -/
theorem decodePort_command {w : Word16} {i : Instr} (h : decodePort w = .ok i) : isCommand i = true := by
  simp only [decodePort, plainCommand, decodeSend, decodeBl] at h
  repeat' split at h
  all_goals first | (cases h; rfl) | cases h

/-- The four kinds of step that have a next state: a primitive of the running command, a host idle interval, an accepted
command, an illegal word. -/
theorem step_cases {s t : State} (h : step s = .next t) :
    s.phase ≠ .reserved ∧
    ((s.busy = true ∧ ∃ p ps, s.plan = p :: ps ∧ t = elapse s.draw (primStep p s.draw s)) ∨
     (s.busy = false ∧ (s.host = [] ∨ ∃ rest, s.host = .idle :: rest) ∧
       t = elapse s.draw { s with host := s.host.tail }) ∨
     (s.busy = false ∧ ∃ w rest i, s.host = .issue w :: rest ∧ decodePort w = .ok i ∧ isCommand i = true ∧
       t = elapse s.draw
        (if legal i s.phase then ruleOf i s.draw (accepted (encode i) { s with host := rest })
          else raise .illegalPhase none none (accepted (encode i) { s with host := rest }))) ∨
     (s.busy = false ∧ ∃ w rest e, s.host = .issue w :: rest ∧ decodePort w = .error e ∧
       t = elapse s.draw (raise .illegalCommand none none (accepted w { s with host := rest })))) := by
  unfold step agentStep at h
  split at h
  · cases h
  · next hp =>
    refine ⟨hp, ?_⟩
    split at h
    · next hb =>
      left
      unfold sequencerMove at h
      split at h
      · next p ps hpl =>
        rw [exec_prim] at h
        cases h
        exact ⟨hb, p, ps, hpl, rfl⟩
      · cases h
    · next hb =>
      have hb : s.busy = false := by simpa using hb
      right
      unfold hostMove at h
      split at h
      · next w rest hh =>
        right
        unfold present at h
        split at h
        · next i hi =>
          left
          have hc := decodePort_command hi
          rw [exec_command hc, accept_idle (by simpa using hb)] at h
          cases h
          exact ⟨hb, w, rest, i, hh, hi, hc, rfl⟩
        · next e he =>
          right
          simp only [execIllegal, hb, stepOf] at h
          cases h
          exact ⟨hb, w, rest, e, hh, he, rfl⟩
      · next rest hh =>
        left
        cases h
        exact ⟨hb, .inr ⟨rest, hh⟩, by rw [hh]; rfl⟩
      · next hh =>
        left
        cases h
        refine ⟨hb, .inl hh, ?_⟩
        rw [hh]
        show elapse s.draw s = elapse s.draw { s with host := [] }
        rw [← hh]

/-! ### Runs -/

/-- A run of one more step. -/
theorem run_succ {s t : State} (h : step s = .next t) (k : Nat) : run (k + 1) s = run k t := by
  simp [run, h]

/-- A run cut in two. -/
theorem run_add {s t : State} {j : Nat} (h : run j s = .next t) (k : Nat) : run (j + k) s = run k t := by
  induction j generalizing s with
  | zero =>
    cases h
    rw [Nat.zero_add]
  | succ j ih =>
    rw [Nat.add_right_comm]
    simp only [run] at h ⊢
    split at h
    · exact ih h
    · cases h
    · cases h

/-- The host has issued its last command when no command word is left among its moves (R144). -/
theorem hostDone_iff (moves : List HostMove) : hostDone moves = true ↔ ∀ w, .issue w ∉ moves := by
  induction moves with
  | nil => simp [hostDone]
  | cons m ms ih =>
    cases m with
    | issue w => exact ⟨fun h => (by cases h), fun h => absurd List.mem_cons_self (h w)⟩
    | idle => simp [hostDone, ih]

/-- A run that is over where it starts ends there. -/
theorem runEnds_zero {s : State} (h : RunOver s) : RunEnds s 0 s where
  reached := rfl
  ended := h
  first := fun k hk => absurd hk (Nat.not_lt_zero k)

/-- A run that is not over takes a step and goes on (R144). -/
theorem runEnds_succ {s t u : State} {n : Nat} (hs : step s = .next t) (ho : ¬RunOver s) (h : RunEnds t n u) :
    RunEnds s (n + 1) u where
  reached := by rw [run_succ hs, h.reached]
  ended := h.ended
  first := by
    intro k hk v hv
    cases k with
    | zero => cases hv; exact ho
    | succ k =>
      rw [run_succ hs] at hv
      exact h.first k (Nat.lt_of_succ_lt_succ hk) v hv

/-- A run from a reachable state reaches reachable states. -/
theorem reachable_of_run {n : Nat} {s t : State} (hs : Reachable s) (h : run n s = .next t) : Reachable t := by
  induction n generalizing s with
  | zero => cases h; exact hs
  | succ n ih =>
    simp only [run] at h
    split at h
    · next u hu => exact ih (.step hs hu) h
    · cases h
    · cases h

end Sys2Proof.Machine
end

