-- ==== Sys2Proof/Laws/PerInstr.lean ====
section
/-! SUPPORT. What is true of every instruction as syntax, one lemma per constructor. -/

namespace Sys2Proof.Laws.Opcode

/-- The opcode w[15:12] of the instruction's word is the one that spec/30_encoding.md R68 assigns. -/
def Statement (i : Instr) : Prop :=
  fieldOp (encode i) =
    match i with
    | .bind => 0x1
    | .acqall => 0x2
    | .bringup => 0x3
    | .start => 0x4
    | .send _ _ _ => 0x5
    | .bl _ => 0x6
    | .close => 0x7
    | .uacq _ => 0x8
    | .uwr _ _ => 0x9
    | .urel _ => 0xA
    | .udly _ => 0xB

theorem bind : Statement .bind := rfl

theorem acqall : Statement .acqall := rfl

theorem bringup : Statement .bringup := rfl

theorem start : Statement .start := rfl

theorem send (tgt : Target) (mode : Mode) (value : Byte) : Statement (.send tgt mode value) := by
  unfold Statement fieldOp encode
  cases tgt <;> cases mode <;> revert value <;> decide

theorem bl (state : Bool) : Statement (.bl state) := by
  cases state <;> rfl

theorem close : Statement .close := rfl

theorem uacq (role : Role) : Statement (.uacq role) := by
  cases role <;> rfl

theorem uwr (role : Role) (lvl : Bool) : Statement (.uwr role lvl) := by
  cases role <;> cases lvl <;> rfl

theorem urel (role : Role) : Statement (.urel role) := by
  cases role <;> rfl

theorem udly (cls : Byte) : Statement (.udly cls) := by
  unfold Statement fieldOp encode
  revert cls
  decide

end Sys2Proof.Laws.Opcode
end

