-- ==== Sys2Proof/Tests/Slice0.lean ====
section
/-! SUPPORT. Tests of the model against spec/95_test_vectors.md and hand readings of the spec's encodings, and for every
statement with hypotheses a witness that meets them. -/

namespace Sys2Proof.Machine.Tests

open Sys2Proof Sys2Proof.Machine

/-! ### Small states -/

/-- Every OS request succeeds; no time passes; no latch at an undefined edge. -/
def good : Draw where
  allocOk  := true
  exportOk := true
  dirOk    := true
  openOk   := true
  writeOk  := true
  dur      := 0
  latches  := false
  latchRs  := false
  latchNib := 0

/-- The parameters of spec/95_test_vectors.md §0 and V-B1, with example values where they are OPEN. -/
def params : Params where
  tHold         := 50000
  pb1           := 3
  pb2           := 2
  pb3           := 1
  funcset4      := 0x28
  bringupTarget := .all
  defaultPin    := { en := 10, en2 := 11, rs := 12, d4 := 13, d5 := 14, d6 := 15, d7 := 16, bl := 17 }
  blInRange     := { listed := [], rest := true }
  unwind        := false
  gpioRoot      := ""

/-- Ids 10 + code(r) from the defaults; one or two controllers; a backlight or none. -/
def inputs (two bl : Bool) : Inputs where
  cfgPin       := every none
  cfgMulti     := two
  cfgBlPresent := bl

/-- An instance at reset whose next draws are `ds`. -/
def bare (ds : List Draw) : State :=
  { State.reset with params := params, inputs := inputs false false, script := ds }

/-- The active roles of a configuration. -/
def roles (two bl : Bool) : PerRole Bool := { every true with en2 := two, bl := bl }

/-- The state after BIND (V-N1, V-N2). -/
def bound (two bl : Bool) (ds : List Draw) : State :=
  { bare ds with
    phase := .pinsBound, cfgNc := some (if two then .two else .one), cfgBlp := some bl, inputs := inputs two bl
    active := roles two bl
    bind := PerRole.ofFn (fun r => if (roles two bl).get r then some (10 + r.code.toNat) else none) }

/-- The state after ACQALL: every active pin acquired and low. -/
def acquired (two bl : Bool) (ds : List Draw) : State :=
  { bound two bl ds with
    phase := .pinsAcquired, pin := PerRole.ofFn (fun r => if (roles two bl).get r then Pin.acquired else Pin.idle) }

/-- The state after BRINGUP, but for line levels and observations. -/
def broughtUp (two bl : Bool) (ds : List Draw) : State := { acquired two bl ds with phase := .controllerBroughtUp }

/-- The state after START. -/
def operational (two bl : Bool) (ds : List Draw) : State :=
  { acquired two bl ds with phase := .operational, hooks := hooksOf bl }

/-- A state in the middle of the command w, with `plan` to do. -/
def inside (s : State) (w : Word16) (plan : List Prim) (fin : Finish) : State :=
  { s with busy := true, cur := some w, upc := 1, plan := plan, fin := fin }

/-- Does the outcome have a next state that meets p? -/
def nextMeets (o : Host.Outcome State Fault Refusal) (p : State → Bool) : Bool :=
  match o with
  | .next t => p t
  | .fault _ => false
  | .refused _ => false

/-- The trace words of a state. -/
def words (s : State) : List Word16 := s.trace.map Prod.fst

/-! ### Well-formedness (spec/30_encoding.md R69, R77) -/

theorem test_wf_refuses_class_4 : (Instr.udly 4).wf = false := by decide

theorem test_wf_refuses_class_255 : (Instr.udly 255).wf = false := by decide

theorem test_wf_takes_class_3 : (Instr.udly 3).wf = true := by decide

/-! ### Decoding: words written bit by bit from the patterns of spec/30_encoding.md R78 -/

theorem test_decode_bind : decodeWord 0b0001000000000000 = .ok .bind := by decide

theorem test_decode_acqall : decodeWord 0b0010000000000000 = .ok .acqall := by decide

theorem test_decode_bringup : decodeWord 0b0011000000000000 = .ok .bringup := by decide

theorem test_decode_start : decodeWord 0b0100000000000000 = .ok .start := by decide

/-- SEND tt = 10, m = 1, v = 01000010 (R75). -/
theorem test_decode_send : decodeWord 0b0101100101000010 = .ok (.send .second .data 0x42) := by decide

theorem test_decode_bl : decodeWord 0b0110000000000001 = .ok (.bl true) := by decide

theorem test_decode_close : decodeWord 0b0111000000000000 = .ok .close := by decide

/-- UACQ rrr = 111 (R23, R75). -/
theorem test_decode_uacq : decodeWord 0b1000011100000000 = .ok (.uacq .bl) := by decide

/-- UWR rrr = 011, l = 1. -/
theorem test_decode_uwr : decodeWord 0b1001001100000001 = .ok (.uwr .d4 true) := by decide

/-- UREL rrr = 100. -/
theorem test_decode_urel : decodeWord 0b1010010000000000 = .ok (.urel .d5) := by decide

/-- UDLY cc = 10 (R75). -/
theorem test_decode_udly : decodeWord 0b1011000000000010 = .ok (.udly 2) := by decide

/-- V-D1, V-D3, V-D8, V-D9, V-D11, V-D13 to V-D18: Illegal on the command port, each by its clause of R69. -/
theorem test_decode_illegal :
    decodePort 0x0000 = .error .reservedOpcode ∧ decodePort 0x1001 = .error .constantBits ∧
    decodePort 0x5C41 = .error .reservedTarget ∧ decodePort 0x5241 = .error .constantBits ∧
    decodePort 0x6002 = .error .constantBits ∧ decodePort 0x7001 = .error .constantBits ∧
    decodePort 0x8000 = .error .traceWord ∧ decodePort 0x9201 = .error .traceWord ∧
    decodePort 0xB000 = .error .traceWord ∧ decodePort 0xC000 = .error .reservedOpcode ∧
    decodePort 0xFFFF = .error .reservedOpcode := by decide

/-- R69: a trace decoder meeting a reserved value reports that it is not a trace word. -/
theorem test_decode_not_trace :
    decodeTrace 0x8800 = .error .constantBits ∧ decodeTrace 0x9202 = .error .constantBits ∧
    decodeTrace 0xB004 = .error .reservedClass ∧ decodeTrace 0xB100 = .error .constantBits ∧
    decodeTrace 0x5433 = .error .notTraceOpcode := by decide

/-- R73: `send.first.i 0x33` is 0x5433; with a doubled dot it is no form of R73. -/
theorem test_assemble_send_name :
    Assembler.assembleLine ['s', 'e', 'n', 'd', '.', 'f', 'i', 'r', 's', 't', '.', 'i', ' ', '0', 'x', '3', '3'] =
      some [0x5433] ∧
    Assembler.assembleLine ['s', 'e', 'n', 'd', '.', '.', 'a', 'l', 'l', '.', 'i', ' ', '0', 'x', '3', '3'] = none ∧
    Assembler.assembleLine ['.', 's', 'e', 'n', 'd', '.', 'a', 'l', 'l', '.', 'i', '.', ' ', '0', 'x', '3', '3'] = none := by
  decide

/-! ### Steps (spec/95_test_vectors.md) -/

/-- V-N2: all eight roles are active and bound to 10 + code. -/
theorem test_bind_two_controllers :
    nextMeets (exec .bind { bare [good] with inputs := inputs true true }) (fun t =>
      t.phase = .pinsBound ∧ t.cfgNc = some .two ∧ t.active = every true ∧ t.bind.en2 = some 11 ∧
      t.bind.bl = some 17) = true := by decide

/-- V-N3: D4 aliases RS; D4 is reported because it comes after RS in ACQ_ORDER. -/
theorem test_bind_alias :
    nextMeets (exec .bind { bare [good] with inputs :=
      { inputs false false with cfgPin := { every none with d4 := some 12, rs := some 12 } } }) (fun t =>
      t.resp = 0x87 ∧ t.fault = { valid := true, code := 7, role := some .d4, id := some 12, cmd := 0x1000 } ∧
      t.active = every false ∧ t.phase = .failed) = true := by decide

/-- V-Q2, its first step: the refused export of EN. -/
theorem test_acqall_export_refused :
    nextMeets (exec .acqall (bound false false [{ good with exportOk := false }])) (fun t =>
      words t = [0x8000] ∧ t.resp = 0x81 ∧ t.pin = every Pin.idle ∧
      t.fault = { valid := true, code := 1, role := some .en, id := some 10, cmd := 0x2000 }) = true := by decide

/-- V-Q4: ACQALL in Unconfigured. -/
theorem test_acqall_illegal_phase :
    nextMeets (exec .acqall (bare [good])) (fun t => t.resp = 0x85 ∧ t.trace = [] ∧ t.phase = .failed) = true := by decide

/-- V-B5: the write of RS fails. -/
theorem test_bringup_write_failure :
    nextMeets (exec .bringup (acquired false false [{ good with writeOk := false }])) (fun t =>
      words t = [0x9200] ∧ t.resp = 0x83 ∧ t.latch1 = [] ∧ t.pin.rs.lvl = none ∧
      t.fault = { valid := true, code := 3, role := some .rs, id := some 12, cmd := 0x3000 }) = true := by decide

/-- V-T0a, V-T0b. -/
theorem test_start_hooks :
    nextMeets (exec .start (broughtUp false false [good])) (fun t => t.hooks = 0b01 ∧ t.phase = .operational) = true ∧
    nextMeets (exec .start (broughtUp false true [good])) (fun t => t.hooks = 0b11 ∧ t.resp = 0x00) = true := by decide

/-- V-T0c. -/
theorem test_start_illegal_phase :
    nextMeets (exec .start (operational false false [good])) (fun t => t.resp = 0x85 ∧ t.phase = .failed) = true := by
  decide

/-- V-S2, its first word. -/
theorem test_send_writes_rs :
    nextMeets (exec (.send .all .data 0x41) (operational true false [good])) (fun t =>
      words t = [0x9201] ∧ t.busy = true ∧ t.cur = some 0x5141 ∧ t.upc = 1 ∧ t.plan.length = 32) = true := by decide

/-- V-S3. -/
theorem test_send_target_unavailable :
    nextMeets (exec (.send .second .data 0x42) (operational false false [good])) (fun t =>
      t.trace = [] ∧ t.resp = 0x86 ∧ t.phase = .failed ∧
      t.fault = { valid := true, code := 6, role := none, id := none, cmd := 0x5942 }) = true := by decide

/-- V-L1, V-L3. -/
theorem test_bl_on :
    nextMeets (exec (.bl true) (operational false true [good])) (fun t =>
      words t = [0x9701] ∧ t.pin.bl.lvl = some true ∧ t.resp = 0x00) = true ∧
    nextMeets (exec (.bl true) (operational false false [good])) (fun t => t.trace = [] ∧ t.resp = 0x00) = true := by
  decide

/-- V-L6. -/
theorem test_bl_write_failure :
    nextMeets (exec (.bl true) (operational false true [{ good with writeOk := false }])) (fun t =>
      words t = [0x9701] ∧ t.pin.bl.lvl = none ∧ t.resp = 0x83 ∧
      t.fault = { valid := true, code := 3, role := some .bl, id := some 17, cmd := 0x6001 }) = true := by decide

/-- V-C3. -/
theorem test_close_unconfigured :
    nextMeets (exec .close (bare [good])) (fun t => t.phase = .released ∧ t.resp = 0x00 ∧ t.trace = []) = true := by decide

/-- V-C1, its first word: D4 is released first on one controller without a backlight. -/
theorem test_close_starts_with_d4 :
    nextMeets (exec .close (operational false false [good])) (fun t => words t = [0xA300] ∧ t.busy = true) = true := by
  decide

/-- V-A1, its last step: D7 acquired. -/
theorem test_uacq_opens :
    nextMeets (exec (.uacq .d7)
      { inside (bound false false [good]) 0x2000 [.acq .d7, .acq .d6] .acquired with stage := 2 }) (fun t =>
      t.pin.d7 = { acq := true, dir := .output, hnd := true, lvl := some false } ∧ t.plan = [.acq .d6]) = true := by decide

/-- V-A4: the open request refused. -/
theorem test_uacq_open_refused :
    nextMeets (exec (.uacq .d7)
      { inside (bound false false [{ good with openOk := false }]) 0x2000 [.acq .d7, .acq .d6] .acquired with
        stage := 2 }) (fun t =>
      t.pin.d7 = Pin.idle ∧ t.resp = 0x81 ∧ t.fault.role = some .d7 ∧ t.fault.id = some 16) = true := by decide

/-- V-W4: a falling edge of EN latches (1, 0x4). -/
theorem test_uwr_falling_edge_latches :
    nextMeets (exec (.uwr .en false)
      { inside (operational false false [good]) 0x5141 [.wr .en false, .dly .t] .done with
        now := 7, pin := { (acquired false false []).pin with
          en := { Pin.acquired with lvl := some true }, rs := { Pin.acquired with lvl := some true }
          d6 := { Pin.acquired with lvl := some true } } }) (fun t =>
      words t = [0x9000] ∧ t.latch1 = [{ rs := true, nib := 0x4, t := 7 }] ∧ t.pin.en.lvl = some false) = true := by decide

/-- V-W7: a failed falling write of EN is an undefined edge, and here the drawn record is appended. -/
theorem test_uwr_failed_edge :
    nextMeets (exec (.uwr .en false)
      { inside (operational false false [{ good with writeOk := false, latches := true, latchNib := 0x9 }]) 0x5141
          [.wr .en false, .dly .t] .done with
        pin := { (acquired false false []).pin with en := { Pin.acquired with lvl := some true } } }) (fun t =>
      t.latch1 = [{ rs := false, nib := 0x9, t := 0 }] ∧ t.pin.en.lvl = none ∧ t.resp = 0x83) = true := by decide

/-- V-R1, its last step. -/
theorem test_urel_releases :
    nextMeets (exec (.urel .d4)
      { inside (operational false false [good]) 0x7000 [.rel .d4, .rel .d5] .closed with stage := 2 }) (fun t =>
      t.pin.d4 = Pin.idle ∧ t.plan = [.rel .d5]) = true := by decide

/-- V-R2: a second release is one step. -/
theorem test_urel_again :
    nextMeets (exec (.urel .d4) (inside (bound false false [good]) 0x7000 [.rel .d4, .rel .d5] .closed)) (fun t =>
      words t = [0xA300] ∧ t.pin = every Pin.idle ∧ t.plan = [.rel .d5]) = true := by decide

/-- V-Y1: Delay(0) at NOW = 1000. -/
theorem test_udly_lasts :
    nextMeets (exec (.udly 0)
      { inside (operational false false [{ good with dur := 5 }]) 0x5141 [.dly .t, .wr .d7 false] .done with now := 1000 })
      (fun t => t.trace = [(0xB000, 1000)] ∧ t.now = 51005) = true := by decide

/-- V-Y3: Delay(2) lasts P_PB2. -/
theorem test_udly_pb2 :
    nextMeets (exec (.udly 2) (inside (acquired false false [good]) 0x3000 [.dly .pb2, .wr .rs false] .broughtUp))
      (fun t => words t = [0xB002] ∧ t.now = 2) = true := by decide

/-- The step takes the word that withFetchWord places (R75's `send.first.i 0x33`, in Unconfigured: IllegalPhase). -/
theorem test_step_fetches :
    nextMeets (step ((bare [good]).withFetchWord 16 0x5433)) (fun t => t.resp = 0x85 ∧ t.fault.cmd = 0x5433) = true := by
  decide

/-! ### The invariant on the small states -/

theorem reset_invariant : Invariant (bare [good]) where
  phase := by decide
  binding := ⟨fun _ => ⟨rfl, rfl, rfl, rfl⟩, fun h => (by cases h), fun h => by rcases h with h | h <;> cases h⟩
  pins := by intro r; cases r <;> decide
  free := by intro h; cases h
  low := by intro h; cases h
  ready := by intro h; cases h
  enables := by intro h; cases h
  idle := fun _ => ⟨rfl, rfl, rfl, rfl, rfl⟩
  running := by intro h; cases h
  fault := ⟨fun h => (by cases h), fun _ => ⟨rfl, by decide⟩⟩
  resp := .inl rfl
  words := by intro x h; cases h
  stamps := .nil

theorem role_code_injective (r q : Role) (h : r.code.toNat = q.code.toNat) : r = q := by
  revert h
  cases r <;> cases q <;> decide

/-- The binding record of the small states. -/
theorem bound_record (two bl : Bool) (ds : List Draw) : Bound (bound two bl ds) where
  known := by simp [bound]
  light := by simp [bound]
  required := ⟨rfl, rfl, rfl, rfl, rfl, rfl⟩
  second := by cases two <;> rfl
  ids := by intro r; cases two <;> cases bl <;> cases r <;> rfl
  distinct := by
    intro r q hne hr hq h
    simp only [bound, PerRole.get_ofFn] at hr hq h
    rw [if_pos hr, if_pos hq] at h
    exact hne (role_code_injective r q (by simpa using h))

theorem bound_invariant (two bl : Bool) (ds : List Draw) : Invariant (bound two bl ds) where
  phase := nofun
  binding := ⟨fun h => (by rcases h with h | h <;> cases h), fun h => (by cases h), fun _ => bound_record two bl ds⟩
  pins := by intro r; cases two <;> cases bl <;> cases r <;> exact ⟨fun h => (by cases h), fun _ => ⟨rfl, rfl, rfl⟩⟩
  free := fun _ _ _ => rfl
  low := by intro _ r h; cases r <;> cases h
  ready := by intro h; cases h
  enables := by intro h; cases h
  idle := fun _ => ⟨rfl, rfl, rfl, rfl, rfl⟩
  running := by intro h; cases h
  fault := ⟨fun h => (by cases h), fun _ => ⟨rfl, nofun⟩⟩
  resp := .inl rfl
  words := by intro x h; cases h
  stamps := .nil

/-- A state in a phase where every active pin is acquired and low, with any hooks. -/
theorem ready_invariant (two bl : Bool) (ds : List Draw) (p : Phase) (hooks : BitVec 2) (hp : p.ready = true) :
    Invariant { acquired two bl ds with phase := p, hooks := hooks } where
  phase := by rintro rfl; cases hp
  binding := ⟨fun h => (by rcases h with rfl | rfl <;> cases hp), fun h => (by cases h; cases hp),
    fun _ => bound_record two bl ds⟩
  pins := by
    intro r
    cases two <;> cases bl <;> cases r <;>
      exact ⟨fun h => (by first | exact ⟨rfl, rfl, rfl, nofun⟩ | cases h), fun h => (by first | exact ⟨rfl, rfl, rfl⟩ | cases h)⟩
  free := by rintro rfl; cases hp
  low := by rintro rfl; cases hp
  ready := by
    intro _ _ r
    cases two <;> cases bl <;> cases r <;> exact fun h => (by first | exact ⟨rfl, nofun⟩ | cases h)
  enables := by intro _ _; cases two <;> rfl
  idle := fun _ => ⟨rfl, rfl, rfl, rfl, rfl⟩
  running := by intro h; cases h
  fault := ⟨fun h => (by cases h), fun _ => ⟨rfl, by rintro rfl; cases hp⟩⟩
  resp := .inl rfl
  words := by intro x h; cases h
  stamps := .nil

theorem operational_invariant (two bl : Bool) (ds : List Draw) : Invariant (operational two bl ds) :=
  ready_invariant two bl ds .operational _ rfl

theorem acquired_invariant (two bl : Bool) (ds : List Draw) : Invariant (acquired two bl ds) :=
  ready_invariant two bl ds .pinsAcquired _ rfl

/-- A SEND on one controller in the middle of its first clear step: D6 is written next, EN is low. -/
def sending : State :=
  inside (operational false false [good]) 0x5433
    (.wr .d6 false :: .wr .d5 false :: .wr .d4 false :: .dly .t :: (dataWrites 0x3 ++ [.dly .t, .wr .en true, .dly .t,
      .wr .en false, .dly .t])) .done

theorem sending_invariant : Invariant sending where
  phase := by decide
  binding := (operational_invariant false false [good]).binding
  pins := (operational_invariant false false [good]).pins
  free := by intro h; cases h
  low := by intro h; cases h
  ready := by intro _ _ r; cases r <;> decide
  enables := fun _ _ => rfl
  idle := by intro h; cases h
  running := fun _ => ⟨.inl ⟨.first, .instruction, 0x33, rfl⟩, rfl, rfl, by decide, by decide⟩
  fault := (operational_invariant false false [good]).fault
  resp := .inl rfl
  words := by intro x h; cases h
  stamps := .nil

/-- A BRINGUP on one controller before its last pause. -/
def bringing : State := inside (acquired false false [good]) 0x3000 [.wr .en false, .dly .t, .dly .pb3] .broughtUp

theorem bringing_invariant : Invariant bringing where
  phase := by decide
  binding := (acquired_invariant false false [good]).binding
  pins := (acquired_invariant false false [good]).pins
  free := by intro h; cases h
  low := by intro h; cases h
  ready := by intro _ _ r; cases r <;> decide
  enables := fun _ _ => rfl
  idle := by intro h; cases h
  running := fun _ => ⟨rfl, rfl, rfl, by decide, by decide⟩
  fault := (acquired_invariant false false [good]).fault
  resp := .inl rfl
  words := by intro x h; cases h
  stamps := .nil

/-- One host word waiting does not touch the invariant of an idle state. -/
theorem waiting_invariant {s : State} (h : Invariant s) (hb : s.busy = false) (moves : List HostMove) :
    Invariant { s with host := moves } where
  phase := h.phase
  binding := h.binding
  pins := h.pins
  free := h.free
  low := h.low
  ready := h.ready
  enables := h.enables
  idle := h.idle
  running := by intro h'; exact absurd (hb.symm.trans h') (by decide)
  fault := h.fault
  resp := h.resp
  words := h.words
  stamps := h.stamps

/-! ### Witnesses: the hypotheses of each statement are met together, one witness for each clause -/

/-- The instance with its next n draws all successful. -/
def goods (n : Nat) : List Draw := List.replicate n good

theorem goods_at {n k : Nat} {s : State} (hs : s.script = goods n) (hk : k < n) : s.drawAt k = good := by
  simp [State.drawAt, hs, goods, hk]

theorem goods_write {n : Nat} {s : State} (hs : s.script = goods n) : WritesSucceed n s := fun k hk => by
  rw [goods_at hs hk]; rfl

theorem goods_request {n : Nat} {s : State} (hs : s.script = goods n) : RequestsSucceed n s := fun k hk => by
  rw [goods_at hs hk]; decide

theorem witness_EncodersInvertDecoders :
    decodePort 0x59FF = .ok (.send .second .data 0xFF) ∧ isCommand (.send .second .data 0xFF) = true ∧
    decodeTrace 0xB003 = .ok (.udly 3) ∧ isCommand (.udly 3) = false ∧ (Instr.udly 3).wf = true := by decide

theorem witness_PortDecoderMeaning :
    decodePort 0x5000 = .ok (.send .all .instruction 0x00) ∧ decodePort 0x59FF = .ok (.send .second .data 0xFF) ∧
    decodePort 0x6000 = .ok (.bl false) ∧ decodePort 0x6001 = .ok (.bl true) := by decide

/-- The clause on the step: V-D1 in Operational, with 0x0000 waiting on the port. -/
theorem witness_IllegalWordsRaiseIllegalCommand :
    isIllegalWord 0x0000 = true ∧ isReservedTraceWord 0xB004 = true ∧ isReservedTraceWord 0x8000 = false ∧
    isReservedTraceWord 0xB003 = false ∧
    (∃ s : State, s.phase ≠ .reserved ∧ s.busy = false ∧ s.host = .issue 0x0000 :: []) ∧
    ∃ t, step sending = .next t ∧ t.trace = sending.trace ++ [(0x9500, 0)] :=
  ⟨by decide, by decide, by decide, by decide, ⟨{ operational false false [good] with host := [.issue 0x0000] },
    by decide, rfl, rfl⟩, _, rfl, rfl⟩

theorem witness_AssemblerReadsBackEveryCommand :
    isCommand (.send .all .data 0x41) = true ∧ (Instr.udly 3).wf = true ∧ 255 < 256 ∧ 256 ≤ 256 ∧
    Assembler.parseImm8 ['0', 'x', '4', '1'] = some 0x41 ∧ Assembler.parseImm8 ['2', '5', '5'] = some 0xFF ∧
    Assembler.parseImm8 ['0', 'b', '0'] = some 0x00 := by decide

theorem witness_StepRunsDecodedInstruction :
    sending.phase ≠ .reserved ∧ sending.busy = true ∧ sending.plan = .wr .d6 false :: sending.plan.tail ∧
    ∃ s : State, s.phase ≠ .reserved ∧ s.busy = false ∧ s.host = .issue 0x1000 :: [] ∧ decodePort 0x1000 = .ok .bind :=
  ⟨by decide, rfl, rfl, { bare [good] with host := [.issue 0x1000] }, by decide, rfl, rfl, by decide⟩

theorem witness_FetchedWordRuns :
    (Instr.udly 3).wf = true ∧ isCommand (.udly 3) = false ∧ (Instr.send .all .data 0xFF).wf = true ∧
    isCommand (.send .all .data 0xFF) = true ∧ (bare [good]).phase ≠ .reserved := by decide

theorem witness_ReservedPhaseRefused : ({ bare [good] with phase := .reserved } : State).phase = .reserved := rfl

theorem witness_IdleChangesOnlyNow :
    (bare [good]).phase ≠ .reserved ∧ (bare [good]).busy = false ∧ (bare [good]).host = [] ∧
    ({ bare [good] with host := [.idle] } : State).host = .idle :: [] := ⟨by decide, rfl, rfl, rfl⟩

theorem witness_HostHasNoMoveWhileBusy :
    sending.busy = true ∧ (∃ t, step sending = .next t) ∧ isCommand .close = true := ⟨rfl, ⟨_, rfl⟩, rfl⟩

/-- An ACQALL at its first role, with the given stage and draw. -/
def acquiring (plan : List Prim) (stage : Nat) (d : Draw) : State :=
  { inside (bound false false [d]) 0x2000 plan .acquired with stage := stage }

theorem witness_UacqAcquiresInThreeSteps :
    ((acquiring [.acq .en, .acq .rs] 0 good).stage = 0 ∧ (acquiring [.acq .en, .acq .rs] 0 good).draw.exportOk = true) ∧
    (acquiring [.acq .en, .acq .rs] 1 good).draw.dirOk = true ∧
    ((acquiring [.acq .en, .acq .rs] 2 good).draw.openOk = true ∧ [Prim.acq .rs] ≠ []) ∧
    ((acquiring [.acq .d4] 2 good).draw.openOk = true ∧ (acquiring [.acq .d4] 2 good).fin = .acquired) ∧
    (acquiring [.acq .d4] 0 good).params.unwind = false ∧
    (acquiring [.acq .d4] 0 { good with exportOk := false }).draw.exportOk = false ∧
    (acquiring [.acq .d4] 1 { good with dirOk := false }).draw.dirOk = false ∧
    (acquiring [.acq .d4] 2 { good with openOk := false }).draw.openOk = false := by decide

/-- RS fails after EN (V-Q3), and EN fails with nothing before it. -/
theorem witness_FailedAcquireUnwinds :
    acqOrder.filter (acquiring [.acq .rs] 0 good).active.get = [.en] ++ .rs :: [.d7, .d6, .d5, .d4] ∧
    acqOrder.filter (acquiring [.acq .en] 0 good).active.get = [] ++ .en :: [.rs, .d7, .d6, .d5, .d4] ∧
    (∃ s : State, s.params.unwind = true ∧ s.active = (bound false false []).active ∧
      ((s.stage = 0 ∧ s.draw.exportOk = false) ∨ (s.stage = 1 ∧ s.draw.dirOk = false) ∨
        (s.stage = 2 ∧ s.draw.openOk = false))) :=
  ⟨by decide, by decide,
    { acquiring [.acq .rs, .acq .d7] 2 { good with openOk := false } with params := { params with unwind := true } },
    rfl, rfl, .inr (.inr ⟨rfl, rfl⟩)⟩

/-- A SEND with the given primitives to do and the given draw. -/
def writing (plan : List Prim) (d : Draw) : State := inside (operational false false [d]) 0x5433 plan .done

theorem witness_UwrWritesTheLevel :
    ((writing [.wr .d7 true, .dly .t] good).pin.d7.acq = true ∧
      (writing [.wr .d7 true, .dly .t] good).draw.writeOk = true) ∧
    ((writing [.wr .d7 true] good).plan = [.wr .d7 true] ∧ (writing [.wr .d7 true] good).fin = .done) ∧
    (writing [.wr .en false] { good with writeOk := false }).draw.writeOk = false ∧
    (writing [.wr .bl true] good).pin.bl.acq = false := by decide

theorem witness_UwrChangesOnlyItsLine :
    (writing [.wr .d7 true, .dly .t] good).fin = .done ∧
    (∃ t, exec (.uwr .d7 true) (writing [.wr .d7 true, .dly .t] good) = .next t) ∧
    (writing [.wr .d7 true, .dly .t] good).pin.d7.acq = true ∧
    (∃ t, exec (.uwr .d7 true) (writing [.wr .d7 true, .dly .t] { good with writeOk := false }) = .next t) :=
  ⟨rfl, ⟨_, rfl⟩, rfl, _, rfl⟩

/-- A CLOSE with the given primitives to do. -/
def closing (plan : List Prim) (stage : Nat) (fin : Finish) : State :=
  { inside (operational false false [good]) 0x7000 plan fin with stage := stage }

theorem witness_UrelReleasesThePin :
    ((closing [.rel .en] 0 .closed).pin.en.acq = true ∧ (closing [.rel .en] 0 .closed).stage = 0) ∧
    ((closing [.rel .bl, .rel .en] 0 .closed).pin.bl.acq = false ∧ [Prim.rel .en] ≠ []) ∧
    ((closing [.rel .bl] 0 .closed).pin.bl.acq = false ∧ (closing [.rel .bl] 0 .closed).fin = .closed) ∧
    (closing [.rel .en] 1 .closed).stage = 1 ∧
    ((closing [.rel .d4, .rel .en] 2 .closed).stage = 2 ∧ (closing [.rel .en] 2 .closed).stage = 2) ∧
    (closing [.rel .en] 2 (.unavailable .rs)).fin = .unavailable .rs := by decide

theorem witness_ReleaseIsIdempotent :
    ((closing [.rel .bl, .rel .en] 0 .closed).stage = 0 ∧ (closing [.rel .bl, .rel .en] 0 .closed).pin.bl.acq = false) ∧
    ((closing [.rel .d4, .rel .d4, .rel .en] 0 .closed).phase ≠ .reserved ∧
      (closing [.rel .d4, .rel .d4, .rel .en] 0 .closed).busy = true ∧
      (closing [.rel .d4, .rel .d4, .rel .en] 0 .closed).stage = 0 ∧
      (closing [.rel .d4, .rel .d4, .rel .en] 0 .closed).pin.d4.acq = true) := by decide

theorem witness_UdlyLastsAtLeastItsBound :
    (writing [.dly .t, .wr .d7 true] good).plan = .dly .t :: .wr .d7 true :: [] ∧
    ((writing [.dly .t] good).plan = [.dly .t] ∧ (writing [.dly .t] good).fin = .done) ∧
    ((inside (acquired false false [good]) 0x3000 [.dly .pb3] .broughtUp).plan = [.dly .pb3] ∧
      (inside (acquired false false [good]) 0x3000 [.dly .pb3] .broughtUp).fin = .broughtUp) := by decide

theorem witness_ReservedDelayClassRefused : 4 ≤ (4 : Byte).toNat ∧ 4 ≤ (255 : Byte).toNat := by decide

/-- A SEND about to pulse EN, which stands at the given level; RS may be undefined. -/
def pulsing (en rs : Option Bool) (d : Draw) : State :=
  { writing [.wr .en false, .dly .t] d with
    pin := { (acquired false false []).pin with
      en := { Pin.acquired with lvl := en }, rs := { Pin.acquired with lvl := rs } } }

theorem witness_ControllerLatchRule :
    ((pulsing (some true) (some false) good).pin.en.acq = true ∧ (pulsing (some true) (some false) good).draw.writeOk = true ∧
      (pulsing (some true) (some false) good).pin.rs.lvl = some false ∧
      dataLines (pulsing (some true) (some false) good) = some 0) ∧
    (pulsing (some true) none good).pin.rs.lvl = none ∧
    ((pulsing (some true) none { good with writeOk := false }).draw.writeOk = false ∧
      (pulsing (some true) none { good with writeOk := false }).pin.en.lvl ≠ some false) ∧
    (pulsing none none good).pin.en.lvl = none ∧
    ((pulsing (some false) none good).pin.en.lvl = some false ∧ (pulsing (some false) none good).stage = 0) ∧
    nextMeets (step (pulsing (some true) (some false) good)) (fun t => t.latch1 ≠ []) = true ∧
    nextMeets (step
      { inside (operational true false [good]) 0x5941 [.wr .en2 false, .dly .t] .done with
        pin := { (acquired true false []).pin with en2 := { Pin.acquired with lvl := some true } } })
      (fun t => t.latch2 ≠ []) = true := by decide

theorem witness_EnableSelection :
    (some Controllers.one ≠ some .two ∧ (none : Option Controllers) ≠ some .two) ∧
    (operational false false [good]).busy = false ∧ (operational false false [good]).phase = .operational ∧
    (operational false false [good]).cfgNc ≠ some .two := by decide

theorem witness_SendStartsWithRegisterSelect :
    (operational true false [good]).busy = false ∧ (operational true false [good]).phase = .operational ∧
    enables .all (operational true false [good]).cfgNc = some [.en, .en2] ∧
    enables .second (operational true false [good]).cfgNc = some [.en2] ∧
    enables .first (operational false false [good]).cfgNc = some [.en] ∧
    (operational true false [good]).pin.rs.acq = true ∧ (operational true false [good]).draw.writeOk = true := by decide

/-- A SEND to First on one controller, to All on two, and to Second on two. -/
theorem ready_to_send :
    (ReadyToSend [.en] (operational false false (goods 29)) ∧
      enables .first (operational false false (goods 29)).cfgNc = some [.en] ∧
      WritesSucceed (25 + 4 * [Role.en].length) (operational false false (goods 29))) ∧
    (ReadyToSend [.en, .en2] (operational true false (goods 33)) ∧
      enables .all (operational true false (goods 33)).cfgNc = some [.en, .en2] ∧
      WritesSucceed (25 + 4 * [Role.en, .en2].length) (operational true false (goods 33))) ∧
    (ReadyToSend [.en2] (operational true false (goods 29)) ∧
      enables .second (operational true false (goods 29)).cfgNc = some [.en2] ∧
      WritesSucceed (25 + 4 * [Role.en2].length) (operational true false (goods 29))) := by
  refine ⟨⟨?_, rfl, goods_write rfl⟩, ⟨?_, rfl, goods_write rfl⟩, ⟨?_, rfl, goods_write rfl⟩⟩ <;>
    unfold ReadyToSend <;> decide

/-- The hypotheses of the statements on a SEND that no fault ends, for a target and its enables. -/
def SendHypotheses (tgt : Target) (es : List Role) (s : State) : Prop :=
  ReadyToSend es s ∧ enables tgt s.cfgNc = some es ∧ WritesSucceed (25 + 4 * es.length) s

theorem send_hypotheses_met :
    (∃ s, SendHypotheses .first [.en] s) ∧ (∃ s, SendHypotheses .all [.en, .en2] s) ∧
    ∃ s, SendHypotheses .second [.en2] s :=
  ⟨⟨_, ready_to_send.1⟩, ⟨_, ready_to_send.2.1⟩, _, ready_to_send.2.2⟩

theorem witness_SendCountsAndLength : (∃ s, SendHypotheses .first [.en] s) ∧ (∃ s, SendHypotheses .all [.en, .en2] s) ∧
    ∃ s, SendHypotheses .second [.en2] s := send_hypotheses_met

theorem witness_SendDrivesAndLatchesNibbles : (∃ s, SendHypotheses .first [.en] s) ∧
    (∃ s, SendHypotheses .all [.en, .en2] s) ∧ ∃ s, SendHypotheses .second [.en2] s := send_hypotheses_met

theorem witness_SendHoldsRegisterSelect : (∃ s, SendHypotheses .first [.en] s) ∧
    (∃ s, SendHypotheses .all [.en, .en2] s) ∧ ∃ s, SendHypotheses .second [.en2] s := send_hypotheses_met

theorem witness_SendLeavesLines : (∃ s, SendHypotheses .first [.en] s) ∧ (∃ s, SendHypotheses .all [.en, .en2] s) ∧
    ∃ s, SendHypotheses .second [.en2] s := send_hypotheses_met

theorem witness_SendLatchesAreWellTimed : (∃ s, SendHypotheses .first [.en] s) ∧
    (∃ s, SendHypotheses .all [.en, .en2] s) ∧ ∃ s, SendHypotheses .second [.en2] s := send_hypotheses_met

theorem witness_EnablesAreLowAtDataWrites :
    Invariant sending ∧ ∃ t, step sending = .next t ∧
      (∃ w x, t.trace = sending.trace ++ [(w, x)] ∧ isSetupWord w = true) ∧ sending.pin.en.acq = true :=
  ⟨sending_invariant, _, rfl, ⟨0x9500, 0, rfl, rfl⟩, rfl⟩

theorem witness_BlWritesWhenActive :
    ((operational false true [good]).busy = false ∧ (operational false true [good]).phase = .operational ∧
      (operational false true [good]).active.bl = true ∧ (operational false true [good]).pin.bl.acq = true ∧
      (operational false true [good]).draw.writeOk = true) ∧
    (operational false true [{ good with writeOk := false }]).draw.writeOk = false ∧
    (operational false false [good]).active.bl = false ∧ (acquired false true [good]).phase ≠ .operational := by decide

theorem witness_SendAndBlKeepPinsAndBinding :
    Invariant sending ∧ (∃ t, step sending = .next t) ∧ stepCommand sending = some (.send .first .instruction 0x33) ∧
    Invariant { operational false true [good] with host := [.issue 0x6001] } ∧
    stepCommand { operational false true [good] with host := [.issue 0x6001] } = some (.bl true) :=
  ⟨sending_invariant, ⟨_, rfl⟩, rfl, waiting_invariant (operational_invariant false true [good]) rfl _, rfl⟩

theorem witness_BindResolvesConfiguration :
    (bare [good]).busy = false ∧ (bare [good]).phase = .unconfigured ∧ (bare [good]).draw.allocOk = true ∧
    ∀ r q, r ≠ q → resolveActive (bare [good]).inputs (bare [good]).params r = true →
      resolveActive (bare [good]).inputs (bare [good]).params q = true →
      resolve (bare [good]).inputs (bare [good]).params r ≠ resolve (bare [good]).inputs (bare [good]).params q := by
  refine ⟨rfl, rfl, rfl, fun r q => ?_⟩
  cases r <;> cases q <;> decide

/-- V-N3: D4 on the id of RS, with EN, RS, D7, D6 and D5 before it. -/
theorem witness_BindReportsFirstAlias :
    ∃ s : State, s.busy = false ∧ s.phase = .unconfigured ∧ s.draw.allocOk = true ∧
      acqOrder.filter (resolveActive s.inputs s.params) = [.en, .rs, .d7, .d6, .d5] ++ .d4 :: [] ∧
      [Role.en, .rs, .d7, .d6, .d5].Pairwise (fun a b => resolve s.inputs s.params a ≠ resolve s.inputs s.params b) ∧
      ∃ q ∈ [Role.en, .rs, .d7, .d6, .d5], resolve s.inputs s.params q = resolve s.inputs s.params .d4 :=
  ⟨{ bare [good] with inputs := { inputs false false with cfgPin := { every none with d4 := some 12, rs := some 12 } } },
    rfl, rfl, rfl, by decide, by decide, .rs, by decide, by decide⟩

theorem witness_AllocationFailureComesFirst :
    (bare [{ good with allocOk := false }]).busy = false ∧ (bare [{ good with allocOk := false }]).phase = .unconfigured ∧
    (bare [{ good with allocOk := false }]).draw.allocOk = false := by decide

/-- The four configurations of R111. -/
theorem witness_AcqallAcquiresConfiguredSet :
    ∀ two bl, Invariant (bound two bl (goods 24)) ∧ (bound two bl (goods 24)).busy = false ∧
      (bound two bl (goods 24)).phase = .pinsBound ∧ RequestsSucceed 24 (bound two bl (goods 24)) :=
  fun two bl => ⟨bound_invariant two bl _, rfl, rfl, goods_request rfl⟩

theorem witness_BringupSendsResetSequence :
    (Invariant (acquired false false (goods 90)) ∧ (acquired false false (goods 90)).busy = false ∧
      (acquired false false (goods 90)).phase = .pinsAcquired ∧
      enables params.bringupTarget.target (acquired false false (goods 90)).cfgNc = some [.en] ∧
      WritesSucceed (78 + 12 * [Role.en].length) (acquired false false (goods 90))) ∧
    (Invariant (acquired true false (goods 102)) ∧
      enables params.bringupTarget.target (acquired true false (goods 102)).cfgNc = some [.en, .en2] ∧
      WritesSucceed (78 + 12 * [Role.en, .en2].length) (acquired true false (goods 102))) :=
  ⟨⟨acquired_invariant _ _ _, rfl, rfl, rfl, goods_write rfl⟩, acquired_invariant _ _ _, rfl, goods_write rfl⟩

theorem witness_StartRegistersHooks :
    (broughtUp false true [good]).busy = false ∧ (broughtUp false true [good]).phase = .controllerBroughtUp ∧
    (operational false true [good]).phase ≠ .controllerBroughtUp := by decide

theorem witness_InitReachesOperational :
    aliasCheck (resolveActive (inputs true true) params) (resolve (inputs true true) params) = none ∧
    RequestsSucceed 128 (instanceOf params (inputs true true)
      [.issue 0x1000, .issue 0x2000, .issue 0x3000, .issue 0x4000] (goods 128) 0) :=
  ⟨by decide, goods_request rfl⟩

theorem witness_CloseReleasesEverything :
    (Invariant (operational true true [good]) ∧ (operational true true [good]).busy = false ∧
      (operational true true [good]).phase ≠ .released) ∧
    ({ bare [good] with phase := .released } : State).busy = false ∧
    ({ bare [good] with phase := .released } : State).phase = .released :=
  ⟨⟨operational_invariant _ _ _, rfl, by decide⟩, rfl, rfl⟩

theorem witness_EveryCommandEndsInTime :
    Invariant { operational false false [good] with host := [.issue 0x7000] } ∧
    ({ operational false false [good] with host := [.issue 0x7000] } : State).busy = false ∧
    ({ operational false false [good] with host := [.issue 0x7000] } : State).host = .issue 0x7000 :: [] :=
  ⟨waiting_invariant (operational_invariant false false [good]) rfl _, rfl, rfl⟩

theorem witness_PhaseLegality :
    (isCommand .bind = true ∧ (operational false false [good]).busy = false ∧
      (operational false false [good]).phase ≠ .unconfigured) ∧
    (isCommand .close = true ∧ ({ bare [good] with phase := .released } : State).busy = false) ∧
    (isCommand .bind = true ∧ (bare [good]).phase = .unconfigured) := ⟨⟨rfl, rfl, by decide⟩, ⟨rfl, rfl⟩, rfl, rfl⟩

theorem witness_FirstFaultIsRecorded :
    (∃ t, step (writing [.wr .d7 true, .dly .t] { good with writeOk := false }) = .next t ∧ t.fault.valid = true) ∧
    (∃ t, step { bare [good] with host := [.issue 0x5433] } = .next t ∧ t.fault.valid = true) ∧
    (writing [.wr .d7 true, .dly .t] { good with writeOk := false }).busy = true ∧
    (bare [good]).fault.valid = false := ⟨⟨_, rfl, rfl⟩, ⟨_, rfl, rfl⟩, rfl, rfl⟩

theorem witness_FaultIsSticky :
    ∃ s : State, s.fault.valid = true ∧ ∃ t, step s = .next t :=
  ⟨{ bare [good] with phase := .failed, fault := { FaultRec.none with valid := true, code := 2 } }, rfl, _, rfl⟩

theorem witness_ResponseByteFormat : ∃ t, step sending = .next t := ⟨_, rfl⟩

theorem witness_PhaseChangesFollowTable :
    Invariant bringing ∧ Invariant { bare [good] with host := [.issue 0x1000] } ∧
    ∃ t, step { bare [good] with host := [.issue 0x1000] } = .next t ∧ t.phase ≠ .unconfigured :=
  ⟨bringing_invariant, waiting_invariant reset_invariant rfl _, _, rfl, by decide⟩

theorem witness_BindingIsImmutable :
    sending.phase ≠ .unconfigured ∧ ∃ t, step sending = .next t ∧ t.phase ≠ .released := ⟨by decide, _, rfl, by decide⟩

theorem witness_ArgumentsNeverChange : ∃ t, step (bare [good]) = .next t := ⟨_, rfl⟩

theorem witness_TraceOnlyGrows : ∃ t, step sending = .next t ∧ t.trace ≠ sending.trace := ⟨_, rfl, by decide⟩

theorem witness_TimeAdvancesByTheDraw :
    (∃ t, step (writing [.dly .t, .wr .d7 true] good) = .next t) ∧ ∃ t, step (bare [good]) = .next t :=
  ⟨⟨_, rfl⟩, _, rfl⟩

theorem witness_EmittedRolesAreActive :
    Invariant sending ∧ ∃ t, step sending = .next t ∧ t.trace = sending.trace ++ [(0x9500, 0)] :=
  ⟨sending_invariant, _, rfl, rfl⟩

theorem witness_UpcCountsPrimitiveSteps :
    (∃ t, step sending = .next t ∧ t.busy = true) ∧
    (∃ t, step (writing [.dly .t] good) = .next t ∧ t.busy = false) ∧
    ∃ t, step { operational false false [good] with host := [.issue 0x5433] } = .next t ∧ t.busy = true :=
  ⟨⟨_, rfl, rfl⟩, ⟨_, rfl, rfl⟩, _, rfl, rfl⟩

/-- Two states that differ in their observation state. -/
theorem witness_ObservationIsNeverRead :
    eraseObservation sending = eraseObservation { sending with now := 9, hooks := 0b11, resp := 0x81 } ∧
    sending ≠ { sending with now := 9, hooks := 0b11, resp := 0x81 } ∧ ∃ t, step sending = .next t :=
  ⟨rfl, by intro h; exact absurd (congrArg State.now h) (by decide), _, rfl⟩

theorem witness_ResetValues : ∃ t, step (bare [good]) = .next t ∧ t.phase = .unconfigured := ⟨_, rfl, rfl⟩

theorem witness_StepKeepsInvariant : Invariant sending ∧ ∃ t, step sending = .next t := ⟨sending_invariant, _, rfl⟩

theorem witness_InvariantStatesNeverStop : Invariant sending ∧ Invariant bringing := ⟨sending_invariant, bringing_invariant⟩

/-- The first four steps of a host that issues BIND and ACQALL: EN is acquired. -/
theorem reached : ∃ t, run 4 (instanceOf params (inputs false false) [.issue 0x1000, .issue 0x2000] (goods 4) 0) = .next t ∧
    t.pin.en.acq = true ∧ t.pin.rs.acq = false ∧ t.active.en = true ∧ t.active.rs = true ∧ t.trace ≠ [] :=
  ⟨_, rfl, rfl, rfl, rfl, rfl, by decide⟩

theorem witness_ReachablePinsAreConsistent :
    ∃ s, Reachable s ∧ s.pin.en.acq = true ∧ s.pin.rs.acq = false :=
  let ⟨t, h, h1, h2, _⟩ := reached
  ⟨t, reachable_of_run (.reset ..) h, h1, h2⟩

theorem witness_TransmissionsRunOnAcquiredPins :
    (Invariant bringing ∧ bringing.phase = .pinsAcquired ∧ stepCommand bringing = some .bringup) ∧
    (Invariant sending ∧ ∃ t, step sending = .next t ∧ t.trace = sending.trace ++ [(0x9500, 0)] ∧
      isWriteWord 0x9500 = true) :=
  ⟨⟨bringing_invariant, rfl, rfl⟩, sending_invariant, _, rfl, rfl, rfl⟩

theorem witness_ReachableIdsDistinctAndStampsRise :
    ∃ s, Reachable s ∧ s.active.en = true ∧ s.active.rs = true ∧ s.trace ≠ [] :=
  let ⟨t, h, _, _, h3, h4, h5⟩ := reached
  ⟨t, reachable_of_run (.reset ..) h, h3, h4, h5⟩

/-- A run of one host word, BIND: it ends after its one step. -/
theorem bind_run_is_clean :
    ∃ t, CleanRun (instanceOf params (inputs false false) [.issue 0x1000, .idle] (goods 1) 0) 1 t ∧ t.phase = .pinsBound :=
  ⟨_, ⟨runEnds_succ rfl (by unfold RunOver; decide) (runEnds_zero ⟨rfl, rfl⟩), rfl⟩, rfl⟩

theorem witness_CleanRunsHaveNoFault :
    ∃ t, CleanRun (instanceOf params (inputs false false) [.issue 0x1000, .idle] (goods 1) 0) 1 t :=
  let ⟨t, h, _⟩ := bind_run_is_clean
  ⟨t, h⟩

theorem witness_CleanRunLatchesAreWellTimed :
    ∃ t, CleanRun (instanceOf params (inputs false false) [.issue 0x1000, .idle] (goods 1) 0) 1 t :=
  let ⟨t, h, _⟩ := bind_run_is_clean
  ⟨t, h⟩

/-- R144: a run is not over while a command waits, though the block is idle and no fault is recorded. -/
theorem test_run_not_over : ¬RunOver (instanceOf params (inputs false false) [.idle, .issue 0x1000] [] 0) := by
  unfold RunOver
  decide

end Sys2Proof.Machine.Tests
end

/-! # What no operation writes: the model's arguments and the host's later moves

`SameWorld` says of two states that the parameters (R8), the configuration inputs (R9) and the host's moves agree. Each
shared operation keeps it; a step takes one host move at most and keeps the parameters and the inputs. -/

namespace Sys2Proof.Machine

theorem SameWorld.refl (s : State) : SameWorld s s := ⟨rfl, rfl, rfl⟩

theorem SameWorld.trans {s t u : State} : SameWorld s t → SameWorld t u → SameWorld s u
  | ⟨hparams, hinputs, hhost⟩, ⟨hparams', hinputs', hhost'⟩ =>
    ⟨hparams'.trans hparams, hinputs'.trans hinputs, hhost'.trans hhost⟩

/-! ### The end of a command and of a primitive -/

theorem endCommand_sameWorld (b : Byte) (s : State) : SameWorld s (endCommand b s) := ⟨rfl, rfl, rfl⟩

theorem raise_sameWorld (c : FaultCode) (role : Option Role) (id : Option Nat) (s : State) :
    SameWorld s (raise c role id s) := ⟨rfl, rfl, rfl⟩

theorem finish_sameWorld (f : Finish) (s : State) : SameWorld s (finish f s) := by
  obtain ⟨-, -, -, -, -, hparams, hinputs, hhost, -⟩ := finish_frame f s
  exact ⟨hparams, hinputs, hhost⟩

theorem continueWith_sameWorld (plan : List Prim) (f : Finish) (s : State) : SameWorld s (continueWith plan f s) := by
  cases plan with
  | nil => exact finish_sameWorld f s
  | cons p ps => exact ⟨rfl, rfl, rfl⟩

theorem advance_sameWorld (s : State) : SameWorld s (advance s) := continueWith_sameWorld s.plan.tail s.fin s

/-! ### The primitives -/

theorem emit_sameWorld (w : Word16) (s : State) : SameWorld s (emit w s) := ⟨rfl, rfl, rfl⟩

theorem setPin_sameWorld (r : Role) (p : Pin) (s : State) : SameWorld s (setPin r p s) := ⟨rfl, rfl, rfl⟩

theorem nextStage_sameWorld (s : State) : SameWorld s (nextStage s) := ⟨rfl, rfl, rfl⟩

theorem observe_sameWorld (r : Role) (e : Edge) (d : Draw) (s : State) : SameWorld s (observe r e d s) :=
  ⟨observe_params r e d s, observe_inputs r e d s, observe_host r e d s⟩

theorem acquireFailed_sameWorld (r : Role) (s : State) : SameWorld s (acquireFailed r s) :=
  continueWith_sameWorld (unwindSeq s.params s.active r) (.unavailable r) s

theorem acquireStep_sameWorld (r : Role) (d : Draw) (s : State) : SameWorld s (acquireStep r d s) := by
  have hemit := emit_sameWorld (encode (.uacq r)) s
  rcases acquireStep_cases r d s with
    ⟨-, -, h⟩ | ⟨-, -, h⟩ | ⟨-, -, h⟩ | ⟨-, -, h⟩ | ⟨-, h⟩ <;> rw [h]
  · exact hemit.trans (nextStage_sameWorld _)
  · exact hemit.trans (acquireFailed_sameWorld r _)
  · exact nextStage_sameWorld s
  · exact (setPin_sameWorld r Pin.acquired s).trans (advance_sameWorld _)
  · exact acquireFailed_sameWorld r s

theorem writeStep_sameWorld (r : Role) (b : Bool) (d : Draw) (s : State) : SameWorld s (writeStep r b d s) := by
  have hobserve (e : Edge) : SameWorld s (observe r e d (emit (encode (.uwr r b)) s)) :=
    (emit_sameWorld _ s).trans (observe_sameWorld r e d _)
  rcases writeStep_cases r b d s with ⟨-, -, h⟩ | ⟨-, -, h⟩ | ⟨-, h⟩ <;> rw [h]
  · exact ((hobserve _).trans (setPin_sameWorld r _ _)).trans (advance_sameWorld _)
  · exact ((hobserve _).trans (setPin_sameWorld r _ _)).trans (raise_sameWorld _ _ _ _)
  · exact raise_sameWorld _ _ _ s

theorem releaseStep_sameWorld (r : Role) (d : Draw) (s : State) : SameWorld s (releaseStep r d s) := by
  have hemit := emit_sameWorld (encode (.urel r)) s
  rcases releaseStep_cases r d s with ⟨-, -, h⟩ | ⟨-, -, h⟩ | ⟨-, h⟩ | ⟨-, h⟩ <;> rw [h]
  · exact (hemit.trans (observe_sameWorld r _ d _)).trans (nextStage_sameWorld _)
  · exact hemit.trans (advance_sameWorld _)
  · exact nextStage_sameWorld s
  · exact (setPin_sameWorld r Pin.idle s).trans (advance_sameWorld _)

/-- The delay itself writes TRACE and NOW only. -/
theorem delayStep_sameWorld (c : DelayClass) (s : State) : SameWorld s (delayStep c s) :=
  advance_sameWorld (sleepBound (delayBound s.params c) (emit (encode (.udly c.code)) s))

theorem primStep_sameWorld (p : Prim) (d : Draw) (s : State) : SameWorld s (primStep p d s) := by
  cases p with
  | acq r => exact acquireStep_sameWorld r d s
  | wr r b => exact writeStep_sameWorld r b d s
  | rel r => exact releaseStep_sameWorld r d s
  | dly c => exact delayStep_sameWorld c s

/-! ### The host commands -/

theorem begin_sameWorld (plan : List Prim) (f : Finish) (d : Draw) (s : State) : SameWorld s (begin plan f d s) := by
  rcases begin_cases plan f d s with ⟨-, h⟩ | ⟨p, ps, -, h⟩ <;> rw [h]
  · exact finish_sameWorld f s
  · exact primStep_sameWorld p d { s with plan := p :: ps, fin := f, stage := 0 }

/-- BIND reads the arguments and writes the binding record or a fault (R101). -/
theorem bindRule_sameWorld (d : Draw) (s : State) : SameWorld s (bindRule d s) := by
  unfold bindRule
  split
  · split
    · exact raise_sameWorld _ _ _ s
    · exact endCommand_sameWorld respOk (bindAll s)
  · exact raise_sameWorld _ _ _ s

theorem bringupRule_sameWorld (d : Draw) (s : State) : SameWorld s (bringupRule d s) := by
  unfold bringupRule
  split
  · exact raise_sameWorld _ _ _ s
  · exact begin_sameWorld _ _ d s

theorem sendRule_sameWorld (tgt : Target) (mode : Mode) (value : Byte) (d : Draw) (s : State) :
    SameWorld s (sendRule tgt mode value d s) := by
  unfold sendRule
  split
  · exact raise_sameWorld _ _ _ s
  · exact begin_sameWorld _ _ d s

theorem closeRule_sameWorld (d : Draw) (s : State) : SameWorld s (closeRule d s) := by
  unfold closeRule
  split
  · exact endCommand_sameWorld respOk s
  · exact begin_sameWorld _ _ d s

theorem ruleOf_sameWorld (i : Instr) (d : Draw) (s : State) : SameWorld s (ruleOf i d s) := by
  cases i with
  | bind => exact bindRule_sameWorld d s
  | acqall => exact begin_sameWorld _ _ d s
  | bringup => exact bringupRule_sameWorld d s
  | start => exact endCommand_sameWorld respOk { s with hooks := hooksOf s.active.bl, phase := .operational }
  | send tgt mode value => exact sendRule_sameWorld tgt mode value d s
  | bl state => exact begin_sameWorld _ _ d s
  | close => exact closeRule_sameWorld d s
  | uacq _ => exact SameWorld.refl s
  | uwr _ _ => exact SameWorld.refl s
  | urel _ => exact SameWorld.refl s
  | udly _ => exact SameWorld.refl s

/-- Dispatch of a command, in a legal phase or not (R67). -/
theorem dispatch_sameWorld (i : Instr) (d : Draw) (s : State) :
    SameWorld s (if legal i s.phase then ruleOf i d (accepted (encode i) s)
      else raise .illegalPhase none none (accepted (encode i) s)) := by
  have haccepted : SameWorld s (accepted (encode i) s) := ⟨rfl, rfl, rfl⟩
  split
  · exact haccepted.trans (ruleOf_sameWorld i d _)
  · exact haccepted.trans (raise_sameWorld _ _ _ _)

/-! ### The step -/

/-- A step takes at most the next of the host's moves, and keeps the arguments (R17, R66). -/
theorem step_sameWorld_of_host {s t : State} (h : step s = .next t) :
    ∃ moves, (moves = s.host ∨ moves = s.host.tail) ∧ SameWorld { s with host := moves } t := by
  obtain ⟨-, hcases⟩ := step_cases h
  rcases hcases with ⟨-, p, ps, -, rfl⟩ | ⟨-, -, rfl⟩ | ⟨-, w, rest, i, hhost, -, -, rfl⟩ | ⟨-, w, rest, e, hhost, -, rfl⟩
  · exact ⟨s.host, .inl rfl, primStep_sameWorld p s.draw s⟩
  · exact ⟨s.host.tail, .inr rfl, rfl, rfl, rfl⟩
  · exact ⟨rest, .inr (by rw [hhost]; rfl), dispatch_sameWorld i s.draw { s with host := rest }⟩
  · exact ⟨rest, .inr (by rw [hhost]; rfl), rfl, rfl, rfl⟩

/-- Settles O45: of the parameters, the inputs and the host's moves a step changes the last only. -/
theorem argumentsNeverChange : Obligations.ArgumentsNeverChange := by
  intro s t h
  obtain ⟨moves, -, hparams, hinputs, -⟩ := step_sameWorld_of_host h
  exact ⟨hparams, hinputs⟩

end Sys2Proof.Machine

/-! # Words: the encoder inverts the port decoder, and the decoders invert the encoder

What the statements on CUR (R33), TRACE (R30) and the running command need of the encodings of R63 to R80. -/

namespace Sys2Proof.Machine

/-! ### From a legal host word back to the word -/

/-- A word is its fields in order (R63). -/
theorem word_eq_op_append (w : Word16) : fieldOp w ++ w.extractLsb' 0 12 = w :=
  BitVec.extractLsb'_append_extractLsb' (w := 4) (len := 12)

theorem encode_of_plainCommand {w : Word16} {i j : Instr} (h : plainCommand w j = .ok i)
    (hword : fieldOp w ++ (0 : BitVec 12) = encode j) : encode i = w := by
  unfold plainCommand at h
  split at h
  · next hzero =>
    cases h
    rw [← hword, ← hzero, word_eq_op_append]
  · cases h

theorem code_of_targetOfCode {c : BitVec 2} {tgt : Target} (h : Target.ofCode c = some tgt) : tgt.code = c := by
  revert c tgt
  decide

theorem code_modeOfCode (c : BitVec 1) : (Mode.ofCode c).code = c := by
  revert c
  decide

theorem encode_of_decodeSend {w : Word16} {i : Instr} (hop : fieldOp w = 0x5) (h : decodeSend w = .ok i) :
    encode i = w := by
  unfold decodeSend at h
  split at h
  · cases h
  · next tgt htgt =>
    split at h
    · cases h
    · next hbit =>
      cases h
      have hzero : w.extractLsb' 9 1 = 0 := by
        ext j hj
        obtain rfl : j = 0 := by omega
        simpa using hbit
      simp only [encode, code_of_targetOfCode htgt, code_modeOfCode, ← hop, ← hzero]
      ext j hj
      simp only [fieldOp, fieldTgt, fieldMode, fieldByte, BitVec.getElem_append, BitVec.getElem_extractLsb']
      grind

theorem encode_of_decodeBl {w : Word16} {i : Instr} (hop : fieldOp w = 0x6) (h : decodeBl w = .ok i) :
    encode i = w := by
  unfold decodeBl at h
  split at h
  · next hzero =>
    cases h
    simp only [encode, ← hop, ← hzero]
    ext j hj
    simp only [fieldOp, fieldBit0, BitVec.getElem_append, BitVec.getElem_extractLsb']
    grind
  · cases h

/-- A legal host word is the word of the command it decodes to (R80). -/
theorem encode_of_decodePort {w : Word16} {i : Instr} (h : decodePort w = .ok i) : encode i = w := by
  simp only [decodePort] at h
  split at h
  · next hop => exact encode_of_plainCommand h (by rw [hop]; rfl)
  split at h
  · next hop => exact encode_of_plainCommand h (by rw [hop]; rfl)
  split at h
  · next hop => exact encode_of_plainCommand h (by rw [hop]; rfl)
  split at h
  · next hop => exact encode_of_plainCommand h (by rw [hop]; rfl)
  split at h
  · next hop => exact encode_of_decodeSend hop h
  split at h
  · next hop => exact encode_of_decodeBl hop h
  split at h
  · next hop => exact encode_of_plainCommand h (by rw [hop]; rfl)
  split at h <;> cases h

/-! ### From an instruction to its word and back -/

theorem decodePort_encode_send (tgt : Target) (mode : Mode) (v : Byte) :
    decodePort (encode (.send tgt mode v)) = .ok (.send tgt mode v) := by
  cases tgt <;> cases mode <;> revert v <;> decide

/-- Every host command is read back from its word (R80). -/
theorem decodePort_encode {i : Instr} (h : isCommand i = true) : decodePort (encode i) = .ok i := by
  cases i with
  | send tgt mode v => exact decodePort_encode_send tgt mode v
  | bl state => cases state <;> rfl
  | bind | acqall | bringup | start | close => rfl
  | uacq _ | uwr _ _ | urel _ | udly _ => cases h

/-- Two host commands with one word are one command. -/
theorem command_eq_of_encode_eq {i j : Instr} (hi : isCommand i = true) (hj : isCommand j = true)
    (h : encode i = encode j) : i = j := by
  have hdecode := decodePort_encode hi
  rw [h, decodePort_encode hj] at hdecode
  injection hdecode with hij
  exact hij.symm

/-! ### The trace word of a primitive -/

theorem Prim.toInstr_not_command (p : Prim) : isCommand p.toInstr = false := by cases p <;> rfl

theorem Prim.toInstr_wf (p : Prim) : p.toInstr.wf = true := by
  cases p with
  | dly c => cases c <;> rfl
  | acq _ | wr _ _ | rel _ => rfl

/-- The word that a primitive emits is a trace word (R79, R80). -/
theorem decodeTrace_toInstr (p : Prim) : decodeTrace (encode p.toInstr) = .ok p.toInstr := by
  cases p with
  | acq r => cases r <;> rfl
  | wr r b => cases r <;> cases b <;> rfl
  | rel r => cases r <;> rfl
  | dly c => cases c <;> rfl

/-- Only a write or a delay emits a UWR or a UDLY word (R64). -/
theorem wr_or_dly_of_word {p : Prim}
    (h : isWriteWord (encode p.toInstr) = true ∨ isDelayWord (encode p.toInstr) = true) :
    (∃ r b, p = .wr r b) ∨ ∃ c, p = .dly c := by
  cases p with
  | acq r => cases r <;> exact absurd h (by decide)
  | wr r b => exact .inl ⟨r, b, rfl⟩
  | rel r => cases r <;> exact absurd h (by decide)
  | dly c => exact .inr ⟨c, rfl⟩

end Sys2Proof.Machine

/-! # What a step does, in terms of what it writes

`PrimEffect` says what a primitive step does to the running command, `Dispatched` what the acceptance of a command does, and
`Effect` what a step does before time passes; each has one lemma that ties it to the model. -/

namespace Sys2Proof.Machine

/-! ### A primitive step -/

/-- The observer writes LATCH and nothing else (R58). -/
theorem observe_eq_latches (r : Role) (e : Edge) (d : Draw) (s : State) :
    ∃ l1 l2, observe r e d s = { s with latch1 := l1, latch2 := l2 } := by
  have happend (rec : LatchRec) : ∃ l1 l2, appendLatch r rec s = { s with latch1 := l1, latch2 := l2 } := by
    rcases appendLatch_cases r rec s with ⟨-, h⟩ | ⟨-, h⟩ | ⟨-, -, h⟩ <;> exact ⟨_, _, h⟩
  rcases observe_cases r e d s with ⟨-, h⟩ | ⟨-, h⟩ | ⟨-, -, h⟩ <;> rw [h]
  · exact ⟨s.latch1, s.latch2, rfl⟩
  · exact happend _
  · exact happend _

/-- What a primitive writes before the command goes on or ends: PIN, LATCH, NOW, and its own word in TRACE. -/
structure Touched (p : Prim) (s t : State) : Prop where
  untouched : Untouched s t
  command   : t.busy = s.busy ∧ t.cur = s.cur ∧ t.upc = s.upc ∧ t.resp = s.resp
  position  : t.plan = s.plan ∧ t.stage = s.stage ∧ t.fin = s.fin
  trace     : t.trace = s.trace ∨ t.trace = s.trace ++ [(encode p.toInstr, s.now)]

/-- The effect of a primitive step: the command goes on, finishes, or faults. A Release does not fault (R83). -/
inductive PrimEffect (p : Prim) (s : State) : State → Prop where
  | goesOn {t : State} (plan : List Prim) (fin : Finish) (stage : Nat) : Touched p s t →
      PrimEffect p s { t with plan := plan, fin := fin, stage := stage, upc := t.upc + 1 }
  | finishes {t : State} : Touched p s t → PrimEffect p s (finish s.fin t)
  | faults {t : State} (c : FaultCode) (role : Option Role) (id : Option Nat) : Touched p s t → (∀ r, p ≠ .rel r) →
      PrimEffect p s (raise c role id t)

theorem Untouched.refl (s : State) : Untouched s s := ⟨rfl, rfl, rfl, ⟨rfl, rfl, rfl, rfl⟩, rfl, rfl, rfl⟩

theorem Touched.refl (p : Prim) (s : State) : Touched p s s :=
  ⟨.refl s, ⟨rfl, rfl, rfl, rfl⟩, ⟨rfl, rfl, rfl⟩, .inl rfl⟩

theorem Touched.emit (p : Prim) (s : State) : Touched p s (emit (encode p.toInstr) s) :=
  ⟨.refl s, ⟨rfl, rfl, rfl, rfl⟩, ⟨rfl, rfl, rfl⟩, .inr rfl⟩

theorem Touched.setPin {p : Prim} {s t : State} (h : Touched p s t) (r : Role) (pin : Pin) :
    Touched p s (setPin r pin t) := ⟨h.untouched, h.command, h.position, h.trace⟩

theorem Touched.sleepBound {p : Prim} {s t : State} (h : Touched p s t) (b : Nat) : Touched p s (sleepBound b t) :=
  ⟨h.untouched, h.command, h.position, h.trace⟩

theorem Touched.observe {p : Prim} {s t : State} (h : Touched p s t) (r : Role) (e : Edge) (d : Draw) :
    Touched p s (observe r e d t) := by
  obtain ⟨l1, l2, ht⟩ := observe_eq_latches r e d t
  rw [ht]
  exact ⟨h.untouched, h.command, h.position, h.trace⟩

theorem Touched.nextStage {p : Prim} {s t : State} (h : Touched p s t) : PrimEffect p s (nextStage t) :=
  .goesOn t.plan t.fin (t.stage + 1) h

theorem Touched.advance {p : Prim} {s t : State} (h : Touched p s t) : PrimEffect p s (advance t) := by
  obtain ⟨-, -, hfin⟩ := h.position
  unfold Machine.advance
  rw [hfin]
  cases t.plan.tail with
  | nil => exact .finishes h
  | cons q qs => exact .goesOn (q :: qs) s.fin 0 h

theorem Touched.acquireFailed {s t : State} {r : Role} (h : Touched (.acq r) s t) :
    PrimEffect (.acq r) s (acquireFailed r t) := by
  rcases acquireFailed_cases r t with ⟨-, ht⟩ | ⟨p, ps, -, ht⟩ <;> rw [ht]
  · exact .faults _ _ _ h nofun
  · exact .goesOn (p :: ps) (.unavailable r) 0 h

/-- What a primitive step can do (R81 to R84). -/
theorem primStep_effect (p : Prim) (d : Draw) (s : State) : PrimEffect p s (primStep p d s) := by
  have hemit := Touched.emit p s
  cases p with
  | acq r =>
    show PrimEffect _ s (acquireStep r d s)
    rcases acquireStep_cases r d s with
      ⟨-, -, h⟩ | ⟨-, -, h⟩ | ⟨-, -, h⟩ | ⟨-, -, h⟩ | ⟨-, h⟩ <;> rw [h]
    · exact hemit.nextStage
    · exact hemit.acquireFailed
    · exact (Touched.refl _ s).nextStage
    · exact ((Touched.refl _ s).setPin r _).advance
    · exact (Touched.refl _ s).acquireFailed
  | wr r b =>
    show PrimEffect _ s (writeStep r b d s)
    rcases writeStep_cases r b d s with ⟨-, -, h⟩ | ⟨-, -, h⟩ | ⟨-, h⟩ <;> rw [h]
    · exact ((hemit.observe r _ d).setPin r _).advance
    · exact .faults _ _ _ ((hemit.observe r _ d).setPin r _) nofun
    · exact .faults _ _ _ (.refl _ s) nofun
  | rel r =>
    show PrimEffect _ s (releaseStep r d s)
    rcases releaseStep_cases r d s with ⟨-, -, h⟩ | ⟨-, -, h⟩ | ⟨-, h⟩ | ⟨-, h⟩ <;> rw [h]
    · exact (hemit.observe r _ d).nextStage
    · exact hemit.advance
    · exact (Touched.refl _ s).nextStage
    · exact ((Touched.refl _ s).setPin r _).advance
  | dly c => exact (hemit.sleepBound _).advance

/-! ### The acceptance of a command -/

/-- The primitives and the closing action of a command that runs as a sequence of primitives, in an accepted state; none for
BIND and START, which are one computation, and where Enables(tgt) is none (R89, R95, R103, R105, R110). -/
def programOf (i : Instr) (s : State) : Option (List Prim × Finish) :=
  match i with
  | .bind => none
  | .acqall => some (acquireSeq s.active, .acquired)
  | .bringup =>
    (enables s.params.bringupTarget.target s.cfgNc).map fun es => (bringupSeq es s.params.funcset4, .broughtUp)
  | .start => none
  | .send tgt mode value => (enables tgt s.cfgNc).map fun es => (sendSeq es mode value, .done)
  | .bl state => some (if s.active.bl then [.wr .bl state] else [], .done)
  | .close => some (if s.phase = .released then ([], .done) else (releaseSeq s.active, .closed))
  | .uacq _ => none
  | .uwr _ _ => none
  | .urel _ => none
  | .udly _ => none

/-- The state in which the first primitive of a program runs. -/
def starting (plan : List Prim) (f : Finish) (s : State) : State := { s with plan := plan, fin := f, stage := 0 }

/-- What dispatch does to the accepted state `s` of the command i (R67): it runs the first primitive, finishes a command
without primitives, does BIND's or START's one computation, or faults. CLOSE does not fault, nor START in its phase. -/
inductive Dispatched (i : Instr) (d : Draw) (s : State) : State → Prop where
  | runs (p : Prim) (ps : List Prim) (f : Finish) : legal i s.phase = true → programOf i s = some (p :: ps, f) →
      Dispatched i d s (primStep p d (starting (p :: ps) f s))
  | finishes (f : Finish) : legal i s.phase = true → programOf i s = some ([], f) → Dispatched i d s (finish f s)
  | binds : i = .bind → s.phase = .unconfigured →
      aliasCheck (resolveActive s.inputs s.params) (resolve s.inputs s.params) = none →
      Dispatched i d s (endCommand respOk (bindAll s))
  | starts : i = .start → s.phase = .controllerBroughtUp → Dispatched i d s (startRule s)
  | faults (c : FaultCode) (role : Option Role) (id : Option Nat) : i ≠ .close →
      (i = .start → s.phase ≠ .controllerBroughtUp) → Dispatched i d s (raise c role id s)

theorem dispatched_begin {i : Instr} {s : State} {plan : List Prim} {f : Finish} (d : Draw)
    (hlegal : legal i s.phase = true) (h : programOf i s = some (plan, f)) : Dispatched i d s (begin plan f d s) := by
  cases plan with
  | nil => exact .finishes f hlegal h
  | cons p ps => exact .runs p ps f hlegal h

/-- A host command's own rule, in a legal phase. -/
theorem dispatched_rule {i : Instr} (hcommand : isCommand i = true) (d : Draw) {s : State}
    (hlegal : legal i s.phase = true) : Dispatched i d s (ruleOf i d s) := by
  cases i with
  | bind =>
    show Dispatched .bind d s (bindRule d s)
    unfold bindRule
    split
    · split
      · exact .faults _ _ _ nofun nofun
      · next halias => exact .binds rfl (by simpa [legal] using hlegal) halias
    · exact .faults _ _ _ nofun nofun
  | acqall => exact dispatched_begin d hlegal rfl
  | bringup =>
    show Dispatched .bringup d s (bringupRule d s)
    unfold bringupRule
    split
    · exact .faults _ _ _ nofun nofun
    · next es hes => exact dispatched_begin d hlegal (by simp [programOf, hes])
  | start => exact .starts rfl (by simpa [legal] using hlegal)
  | send tgt mode value =>
    show Dispatched _ d s (sendRule tgt mode value d s)
    unfold sendRule
    split
    · exact .faults _ _ _ nofun nofun
    · next es hes => exact dispatched_begin d hlegal (by simp [programOf, hes])
  | bl state => exact dispatched_begin d hlegal rfl
  | close =>
    show Dispatched .close d s (closeRule d s)
    unfold closeRule
    split
    · next hphase => exact dispatched_begin (plan := []) (f := .done) d hlegal (by simp [programOf, hphase])
    · next hphase => exact dispatched_begin d hlegal (by simp [programOf, hphase])
  | uacq _ | uwr _ _ | urel _ | udly _ => cases hcommand

/-- Dispatch in any phase (R67, R114). -/
theorem dispatched {i : Instr} (hcommand : isCommand i = true) (d : Draw) (s : State) :
    Dispatched i d s (if legal i s.phase then ruleOf i d s else raise .illegalPhase none none s) := by
  split
  · next hlegal => exact dispatched_rule hcommand d hlegal
  · next hlegal =>
    refine .faults _ _ _ ?_ ?_
    · rintro rfl
      exact hlegal rfl
    · rintro rfl hphase
      exact hlegal (by simp [legal, hphase])

/-! ### The step -/

/-- What a step from `s` does before its time passes: a primitive of the running command, a host idle interval, the
acceptance of a command, or the refusal of an illegal word by the fault procedure. -/
inductive Effect (s : State) : State → Prop where
  | primitive (p : Prim) (ps : List Prim) : s.busy = true → s.plan = p :: ps → Effect s (primStep p s.draw s)
  | idles : s.busy = false → (s.host = [] ∨ ∃ rest, s.host = .idle :: rest) → Effect s { s with host := s.host.tail }
  | accepts {t : State} (w : Word16) (rest : List HostMove) (i : Instr) : s.busy = false → s.host = .issue w :: rest →
      decodePort w = .ok i → encode i = w → Dispatched i s.draw (accepted w { s with host := rest }) t → Effect s t
  | rejects (w : Word16) (rest : List HostMove) (e : Reject) : s.busy = false → s.host = .issue w :: rest →
      decodePort w = .error e → Effect s (raise .illegalCommand none none (accepted w { s with host := rest }))

/-- Every step is one of these effects, and then time passes (R56, R67). -/
theorem step_effect {s t : State} (h : step s = .next t) :
    s.phase ≠ .reserved ∧ ∃ u, Effect s u ∧ t = elapse s.draw u := by
  obtain ⟨hphase, hcases⟩ := step_cases h
  refine ⟨hphase, ?_⟩
  rcases hcases with ⟨hbusy, p, ps, hplan, ht⟩ | ⟨hbusy, hhost, ht⟩ | ⟨hbusy, w, rest, i, hhost, hdecode, hcommand, ht⟩ |
    ⟨hbusy, w, rest, e, hhost, hdecode, ht⟩
  · exact ⟨_, .primitive p ps hbusy hplan, ht⟩
  · exact ⟨_, .idles hbusy hhost, ht⟩
  · have hword := encode_of_decodePort hdecode
    have hdispatched := dispatched hcommand s.draw (accepted (encode i) { s with host := rest })
    rw [hword] at hdispatched ht
    exact ⟨_, .accepts w rest i hbusy hhost hdecode hword hdispatched, ht⟩
  · exact ⟨_, .rejects w rest e hbusy hhost hdecode, ht⟩

/-- Settles O8: the phase is looked at before anything else (R18). -/
theorem reservedPhaseRefused : Obligations.ReservedPhaseRefused := by
  intro s h
  simp [step, agentStep, h]

end Sys2Proof.Machine

/-! # The binding record, TRACE, CUR and UPC under every step -/

namespace Sys2Proof.Machine

/-! ### The binding record (R39) -/

theorem SameBinding.trans {s t u : State} : SameBinding s t → SameBinding t u → SameBinding s u
  | ⟨hnc, hblp, hactive, hbind⟩, ⟨hnc', hblp', hactive', hbind'⟩ =>
    ⟨hnc'.trans hnc, hblp'.trans hblp, hactive'.trans hactive, hbind'.trans hbind⟩

/-- Only the closing action of CLOSE writes the binding record (R110). -/
theorem finish_sameBinding {f : Finish} {s : State} (h : (finish f s).phase ≠ .released) : SameBinding s (finish f s) := by
  cases f with
  | closed => exact absurd rfl h
  | done | acquired | unavailable _ | broughtUp => exact ⟨rfl, rfl, rfl, rfl⟩

theorem PrimEffect.sameBinding {p : Prim} {s t : State} (h : PrimEffect p s t) (hphase : t.phase ≠ .released) :
    SameBinding s t := by
  cases h with
  | goesOn plan fin stage htouched =>
    obtain ⟨-, -, -, hbinding, -⟩ := htouched.untouched
    exact hbinding
  | finishes htouched =>
    obtain ⟨-, -, -, hbinding, -⟩ := htouched.untouched
    exact hbinding.trans (finish_sameBinding hphase)
  | faults c role id htouched hrel =>
    obtain ⟨-, -, -, hbinding, -⟩ := htouched.untouched
    exact hbinding

theorem Dispatched.sameBinding {i : Instr} {d : Draw} {s t : State} (h : Dispatched i d s t)
    (hbound : s.phase ≠ .unconfigured) (hphase : t.phase ≠ .released) : SameBinding s t := by
  cases h with
  | runs p ps f hlegal hprogram => exact (primStep_effect p d (starting (p :: ps) f s)).sameBinding hphase
  | finishes f hlegal hprogram => exact finish_sameBinding hphase
  | binds hi hunconfigured halias => exact absurd hunconfigured hbound
  | starts hi hphase => exact ⟨rfl, rfl, rfl, rfl⟩
  | faults c role id hclose hstart => exact ⟨rfl, rfl, rfl, rfl⟩

/-- Settles O44: BIND writes the record from Unconfigured only, and the closing action of CLOSE leads to Released. -/
theorem bindingIsImmutable : Obligations.BindingIsImmutable := by
  intro s t hbound h hphase
  obtain ⟨-, u, heffect, rfl⟩ := step_effect h
  show SameBinding s u
  cases heffect with
  | primitive p ps hbusy hplan => exact (primStep_effect p s.draw s).sameBinding hphase
  | idles hbusy hhost => exact ⟨rfl, rfl, rfl, rfl⟩
  | accepts w rest i hbusy hhost hdecode hword hdispatched => exact hdispatched.sameBinding hbound hphase
  | rejects w rest e hbusy hhost hdecode => exact ⟨rfl, rfl, rfl, rfl⟩

/-! ### TRACE (R30) -/

/-- A primitive step emits its own word or none. -/
theorem PrimEffect.trace {p : Prim} {s t : State} (h : PrimEffect p s t) :
    t.trace = s.trace ∨ t.trace = s.trace ++ [(encode p.toInstr, s.now)] := by
  cases h with
  | goesOn plan fin stage htouched => exact htouched.trace
  | @finishes u htouched =>
    obtain ⟨-, htrace, -⟩ := finish_frame s.fin u
    rw [htrace]
    exact htouched.trace
  | faults c role id htouched hrel => exact htouched.trace

/-- Dispatch emits the word of the first primitive or none. -/
theorem Dispatched.trace {i : Instr} {d : Draw} {s t : State} (h : Dispatched i d s t) :
    t.trace = s.trace ∨ ∃ p ps f, legal i s.phase = true ∧ programOf i s = some (p :: ps, f) ∧
      t.trace = s.trace ++ [(encode p.toInstr, s.now)] := by
  cases h with
  | runs p ps f hlegal hprogram =>
    exact (primStep_effect p d (starting (p :: ps) f s)).trace.imp_right fun htrace => ⟨p, ps, f, hlegal, hprogram, htrace⟩
  | finishes f hlegal hprogram =>
    obtain ⟨-, htrace, -⟩ := finish_frame f s
    exact .inl htrace
  | binds hi hunconfigured halias => exact .inl rfl
  | starts hi hphase => exact .inl rfl
  | faults c role id hclose hstart => exact .inl rfl

/-- Settles O46: what a step appends is the word of the primitive it runs. -/
theorem traceOnlyGrows : Obligations.TraceOnlyGrows := by
  refine ⟨rfl, fun s t h => ?_⟩
  obtain ⟨-, u, heffect, rfl⟩ := step_effect h
  show u.trace = s.trace ∨ ∃ i, isCommand i = false ∧ i.wf = true ∧ u.trace = s.trace ++ [(encode i, s.now)]
  cases heffect with
  | primitive p ps hbusy hplan =>
    exact (primStep_effect p s.draw s).trace.imp_right fun htrace =>
      ⟨p.toInstr, p.toInstr_not_command, p.toInstr_wf, htrace⟩
  | idles hbusy hhost => exact .inl rfl
  | accepts w rest i hbusy hhost hdecode hword hdispatched =>
    exact hdispatched.trace.imp_right fun ⟨p, _, _, _, _, htrace⟩ =>
      ⟨p.toInstr, p.toInstr_not_command, p.toInstr_wf, htrace⟩
  | rejects w rest e hbusy hhost hdecode => exact .inl rfl

/-! ### CUR and UPC (R33) -/

/-- CUR and UPC after a step of a command: counted on while it runs, cleared when it ends. -/
def Counted (s t : State) : Prop :=
  (t.busy = true → t.upc = s.upc + 1 ∧ t.cur = s.cur) ∧ (t.busy = false → t.upc = 0 ∧ t.cur = none)

theorem Counted.of_ended {s t : State} (hbusy : t.busy = false) (hupc : t.upc = 0) (hcur : t.cur = none) : Counted s t :=
  ⟨fun h => absurd (hbusy.symm.trans h) (by decide), fun _ => ⟨hupc, hcur⟩⟩

theorem finish_counted (f : Finish) (s t : State) : Counted s (finish f t) := by
  obtain ⟨hbusy, hcur, hupc, -⟩ := finish_ends f t
  exact .of_ended hbusy hupc hcur

theorem PrimEffect.counted {p : Prim} {s t : State} (h : PrimEffect p s t) (hs : s.busy = true) : Counted s t := by
  cases h with
  | goesOn plan fin stage htouched =>
    obtain ⟨hbusy, hcur, hupc, -⟩ := htouched.command
    exact ⟨fun _ => ⟨congrArg (· + 1) hupc, hcur⟩, fun h => absurd (h.symm.trans (hbusy.trans hs)) (by decide)⟩
  | finishes htouched => exact finish_counted _ _ _
  | faults c role id htouched hrel => exact .of_ended rfl rfl rfl

theorem Dispatched.counted {i : Instr} {d : Draw} {s t : State} (h : Dispatched i d s t) (hs : s.busy = true) :
    Counted s t := by
  cases h with
  | runs p ps f hlegal hprogram => exact (primStep_effect p d (starting (p :: ps) f s)).counted hs
  | finishes f hlegal hprogram => exact finish_counted _ _ _
  | binds hi hunconfigured halias => exact .of_ended rfl rfl rfl
  | starts hi hphase => exact .of_ended rfl rfl rfl
  | faults c role id hclose hstart => exact .of_ended rfl rfl rfl

/-- Settles O49: a step of a running command counts on, and so does an acceptance, from UPC = 0 and CUR = the word. -/
theorem upcCountsPrimitiveSteps : Obligations.UpcCountsPrimitiveSteps := by
  refine ⟨⟨rfl, rfl⟩, fun s t h => ?_⟩
  obtain ⟨-, u, heffect, rfl⟩ := step_effect h
  show (s.busy = true → u.busy = true → u.upc = s.upc + 1 ∧ u.cur = s.cur) ∧
    (s.busy = true → u.busy = false → u.upc = 0 ∧ u.cur = none) ∧
    (s.busy = false → u.busy = true → u.upc = 1 ∧ ∃ w rest, s.host = .issue w :: rest ∧ u.cur = some w)
  cases heffect with
  | primitive p ps hbusy hplan =>
    obtain ⟨hon, hend⟩ := (primStep_effect p s.draw s).counted hbusy
    simp only [hbusy]
    exact ⟨fun _ => hon, fun _ => hend, nofun⟩
  | idles hbusy hhost => simp [hbusy]
  | accepts w rest i hbusy hhost hdecode hword hdispatched =>
    obtain ⟨hon, -⟩ := hdispatched.counted rfl
    simp only [hbusy]
    exact ⟨nofun, nofun, fun _ hu => ⟨(hon hu).1, w, rest, hhost, (hon hu).2⟩⟩
  | rejects w rest e hbusy hhost hdecode => simp [hbusy]

end Sys2Proof.Machine

/-! # The observation state is never read

`eraseObservation` commutes with every operation up to erasure: an operation's result, erased, is that of the erased state.
Two states with one erasure therefore step alike (R29, R31, R32, R34). -/

namespace Sys2Proof.Machine

/-! ### What erasure leaves -/

@[simp] theorem eraseObservation_cfgNc (s : State) : (eraseObservation s).cfgNc = s.cfgNc := rfl
@[simp] theorem eraseObservation_plan (s : State) : (eraseObservation s).plan = s.plan := rfl
@[simp] theorem eraseObservation_stage (s : State) : (eraseObservation s).stage = s.stage := rfl
@[simp] theorem eraseObservation_params (s : State) : (eraseObservation s).params = s.params := rfl
@[simp] theorem eraseObservation_inputs (s : State) : (eraseObservation s).inputs = s.inputs := rfl
@[simp] theorem eraseObservation_host (s : State) : (eraseObservation s).host = s.host := rfl

/-- The observer's part of a step is erased (R58). -/
@[simp] theorem eraseObservation_observe (r : Role) (e : Edge) (d : Draw) (s : State) :
    eraseObservation (observe r e d s) = eraseObservation s := by
  obtain ⟨l1, l2, h⟩ := observe_eq_latches r e d s
  rw [h]
  rfl

/-! ### The primitives -/

/-- The value of `f`, up to `erase`, does not depend on the observation state. -/
def BlindUpTo {α : Type} (erase : α → α) (f : State → α) : Prop := ∀ s, erase (f s) = erase (f (eraseObservation s))

/-- An operation that does not read the observation state. -/
abbrev Blind (f : State → State) : Prop := BlindUpTo eraseObservation f

/-- A choice between blind operations by a condition on what erasure leaves. -/
theorem BlindUpTo.ite {α : Type} {erase : α → α} {f g : State → α} {c : State → Prop} [DecidablePred c]
    (hc : ∀ s, c (eraseObservation s) ↔ c s) (hf : BlindUpTo erase f) (hg : BlindUpTo erase g) :
    BlindUpTo erase fun s => if c s then f s else g s := by
  intro s
  by_cases h : c s
  · simpa only [if_pos h, if_pos ((hc s).2 h)] using hf s
  · simpa only [if_neg h, if_neg (mt (hc s).1 h)] using hg s

/-- A blind operation takes states that differ in observation to states that differ in observation. -/
theorem Blind.congr {f : State → State} (h : Blind f) {s t : State} (hst : eraseObservation s = eraseObservation t) :
    eraseObservation (f s) = eraseObservation (f t) := by
  rw [h s, h t, hst]

theorem blind_raise (c : FaultCode) (role : Option Role) (id : Option Nat) : Blind (raise c role id) := fun _ => rfl

theorem blind_setLvl (r : Role) (l : Option Bool) : Blind (setLvl r l) := fun _ => rfl

theorem blind_nextStage : Blind nextStage := fun _ => rfl

theorem blind_elapse (d : Draw) : Blind (elapse d) := fun _ => rfl

theorem blind_finish (f : Finish) : Blind (finish f) := by
  intro s
  cases f <;> rfl

theorem blind_continueWith (plan : List Prim) (f : Finish) : Blind (continueWith plan f) := by
  intro s
  cases plan with
  | nil => exact blind_finish f s
  | cons p ps => rfl

theorem blind_advance : Blind advance := fun s => blind_continueWith s.plan.tail s.fin s

theorem blind_acquireFailed (r : Role) : Blind (acquireFailed r) := fun s =>
  blind_continueWith (unwindSeq s.params s.active r) (.unavailable r) s

theorem blind_acquireStep (r : Role) (d : Draw) : Blind (acquireStep r d) := by
  intro s
  simp only [acquireStep, eraseObservation_stage]
  split
  · split
    · rfl
    · exact (blind_acquireFailed r).congr rfl
  · split
    · rfl
    · exact blind_acquireFailed r s
  · split
    · exact blind_advance.congr rfl
    · exact blind_acquireFailed r s

theorem blind_writeStep (r : Role) (b : Bool) (d : Draw) : Blind (writeStep r b d) := by
  intro s
  have hemit (e : Edge) : eraseObservation (observe r e d (emit (encode (.uwr r b)) s)) =
      eraseObservation (observe r e d (emit (encode (.uwr r b)) (eraseObservation s))) := by
    rw [eraseObservation_observe, eraseObservation_observe]
    rfl
  rcases writeStep_cases r b d s with ⟨hacq, hok, h⟩ | ⟨hacq, hok, h⟩ | ⟨hacq, h⟩ <;> rw [h]
  · rw [writeStep_ok (s := eraseObservation s) b hacq hok]
    exact blind_advance.congr ((blind_setLvl r _).congr (hemit _))
  · rw [writeStep_fails (s := eraseObservation s) b hacq hok]
    exact (blind_raise _ _ _).congr ((blind_setLvl r _).congr (hemit _))
  · rw [writeStep_unacquired (s := eraseObservation s) b hacq]
    rfl

/-- The first step of Release(r), whose request is made for an acquired pin only (R83). -/
theorem blind_releaseStart (r : Role) (d : Draw) : Blind fun s =>
    if (s.pin.get r).acq then
      nextStage (observe r (releaseEdge (s.pin.get r).lvl) d (emit (encode (.urel r)) s))
    else advance (emit (encode (.urel r)) s) := by
  refine .ite (fun _ => Iff.rfl) (fun s => blind_nextStage.congr ?_) (fun s => blind_advance.congr rfl)
  rw [eraseObservation_observe, eraseObservation_observe]
  rfl

theorem blind_releaseStep (r : Role) (d : Draw) : Blind (releaseStep r d) := by
  intro s
  simp only [releaseStep, eraseObservation_stage]
  split
  · exact blind_releaseStart r d s
  · rfl
  · exact blind_advance.congr rfl

theorem blind_delayStep (c : DelayClass) : Blind (delayStep c) := fun _ => blind_advance.congr rfl

theorem blind_primStep (p : Prim) (d : Draw) : Blind (primStep p d) := by
  cases p with
  | acq r => exact blind_acquireStep r d
  | wr r b => exact blind_writeStep r b d
  | rel r => exact blind_releaseStep r d
  | dly c => exact blind_delayStep c

/-! ### The commands -/

theorem blind_begin (plan : List Prim) (f : Finish) (d : Draw) : Blind (begin plan f d) := by
  intro s
  cases plan with
  | nil => exact blind_finish f s
  | cons p ps => exact (blind_primStep p d).congr rfl

theorem blind_bindRule (d : Draw) : Blind (bindRule d) := by
  intro s
  simp only [bindRule, eraseObservation_inputs, eraseObservation_params]
  split
  · split <;> rfl
  · rfl

theorem blind_bringupRule (d : Draw) : Blind (bringupRule d) := by
  intro s
  simp only [bringupRule, eraseObservation_params, eraseObservation_cfgNc]
  split
  · rfl
  · exact blind_begin _ _ d s

theorem blind_sendRule (tgt : Target) (mode : Mode) (value : Byte) (d : Draw) : Blind (sendRule tgt mode value d) := by
  intro s
  simp only [sendRule, eraseObservation_cfgNc]
  split
  · rfl
  · exact blind_begin _ _ d s

theorem blind_closeRule (d : Draw) : Blind (closeRule d) :=
  .ite (fun _ => Iff.rfl) (fun _ => rfl) (fun s => blind_begin (releaseSeq s.active) .closed d s)

theorem blind_ruleOf (i : Instr) (d : Draw) : Blind (ruleOf i d) := by
  cases i with
  | bind => exact blind_bindRule d
  | acqall => exact fun s => blind_begin (acquireSeq s.active) .acquired d s
  | bringup => exact blind_bringupRule d
  | start => exact fun _ => rfl
  | send tgt mode value => exact blind_sendRule tgt mode value d
  | bl state => exact fun s => blind_begin (if s.active.bl then [.wr .bl state] else []) .done d s
  | close => exact blind_closeRule d
  | uacq _ | uwr _ _ | urel _ | udly _ => exact fun _ => rfl

/-! ### The step -/

/-- An outcome with its next state's observation erased. -/
def eraseOutcome : Host.Outcome State Fault Refusal → Host.Outcome State Fault Refusal
  | .next t => .next (eraseObservation t)
  | .fault f => .fault f
  | .refused f => .refused f

theorem next_of_eraseOutcome {o : Host.Outcome State Fault Refusal} {t : State}
    (h : eraseOutcome o = eraseOutcome (.next t)) : ∃ u, o = .next u ∧ eraseObservation t = eraseObservation u := by
  cases o with
  | next u => exact ⟨u, rfl, (Host.Outcome.next.inj h).symm⟩
  | fault f => cases h
  | refused f => cases h

theorem fault_of_eraseOutcome {o : Host.Outcome State Fault Refusal} {f : Fault}
    (h : eraseOutcome o = eraseOutcome (.fault f)) : o = .fault f := by
  cases o with
  | next u => cases h
  | fault g => exact h
  | refused g => cases h

theorem refused_of_eraseOutcome {o : Host.Outcome State Fault Refusal} {f : Refusal}
    (h : eraseOutcome o = eraseOutcome (.refused f)) : o = .refused f := by
  cases o with
  | next u => cases h
  | fault g => cases h
  | refused g => exact h

/-- A move whose outcome does not depend on the observation state, but for the observation state in it. -/
abbrev BlindOutcome (f : State → Host.Outcome State Fault Refusal) : Prop := BlindUpTo eraseOutcome f

theorem blindOutcome_stepOf {f : Draw → State → State} (h : ∀ d, Blind (f d)) : BlindOutcome (stepOf f) := fun s =>
  congrArg Host.Outcome.next ((blind_elapse s.draw).congr (h s.draw s))

theorem blindOutcome_accept (i : Instr) {rule : Draw → State → State} (h : ∀ d, Blind (rule d)) :
    BlindOutcome (accept i rule) :=
  .ite (fun _ => Iff.rfl) (fun _ => rfl)
    (blindOutcome_stepOf fun d => .ite (fun _ => Iff.rfl) (fun _ => (h d).congr rfl) (fun _ => rfl))

theorem blindOutcome_execIllegal (w : Word16) : BlindOutcome (execIllegal w) :=
  .ite (fun _ => Iff.rfl) (fun _ => rfl) (blindOutcome_stepOf fun _ _ => rfl)

theorem blindOutcome_present (w : Word16) : BlindOutcome (present w) := by
  intro s
  unfold present
  split
  · next i hdecode =>
    rw [exec_command (decodePort_command hdecode), exec_command (decodePort_command hdecode)]
    exact blindOutcome_accept i (blind_ruleOf i) s
  · exact blindOutcome_execIllegal w s

theorem blindOutcome_hostMove : BlindOutcome hostMove := by
  intro s
  simp only [hostMove, eraseObservation_host]
  split
  · next w rest hhost => exact blindOutcome_present w { s with host := rest }
  · rfl
  · rfl

theorem blindOutcome_sequencerMove : BlindOutcome sequencerMove := by
  intro s
  simp only [sequencerMove, eraseObservation_plan]
  split
  · next p ps hplan =>
    rw [exec_prim, exec_prim]
    exact blindOutcome_stepOf (blind_primStep p) s
  · rfl

theorem blindOutcome_step : BlindOutcome step :=
  .ite (fun _ => Iff.rfl) (fun _ => rfl) (.ite (fun _ => Iff.rfl) blindOutcome_sequencerMove blindOutcome_hostMove)

/-- Settles O50: the erased outcome of a step is that of the erased state, so two states with one erasure have one. -/
theorem observationIsNeverRead : Obligations.ObservationIsNeverRead := by
  intro s₁ s₂ h
  have houtcome : eraseOutcome (step s₂) = eraseOutcome (step s₁) := by
    rw [blindOutcome_step s₁, blindOutcome_step s₂, h]
  refine ⟨fun t h₁ => ?_, fun f h₁ => ?_, fun f h₁ => ?_⟩ <;> rw [h₁] at houtcome
  · exact next_of_eraseOutcome houtcome
  · exact fault_of_eraseOutcome houtcome
  · exact refused_of_eraseOutcome houtcome

end Sys2Proof.Machine

/-! # The invariant, without the position in a command

`Steady` is the part of `Invariant` that says nothing of the position in a command; the operations keep it one by one. -/

namespace Sys2Proof.Machine

/-- The part of the invariant that does not depend on the position in a command. -/
structure Steady (s : State) : Prop where
  phase   : s.phase ≠ .reserved
  binding : BindingOk s
  pins    : PinsOk s
  fault   : FaultOk s
  resp    : s.resp = 0x00 ∨ ∃ c : FaultCode, s.resp = respFault c
  words   : ∀ x ∈ s.trace, (∃ i, decodeTrace x.1 = .ok i) ∧ x.2 ≤ s.now
  stamps  : s.trace.Pairwise (fun a b => a.2 ≤ b.2)

theorem Invariant.steady {s : State} (h : Invariant s) : Steady s :=
  ⟨h.phase, h.binding, h.pins, h.fault, h.resp, h.words, h.stamps⟩

/-! ### What its parts say -/

theorem PinsOk.active_of_acq {s : State} (h : PinsOk s) {r : Role} (hacq : (s.pin.get r).acq = true) :
    s.active.get r = true := by
  obtain ⟨-, -, hactive, -⟩ := (h r).1 hacq
  exact hactive

theorem PinsOk.lvl_of_not_acq {s : State} (h : PinsOk s) {r : Role} (hacq : (s.pin.get r).acq = false) :
    (s.pin.get r).lvl = none := by
  obtain ⟨-, -, hlvl⟩ := (h r).2 hacq
  exact hlvl

theorem eq_idle {p : Pin} (hacq : p.acq = false) (hdir : p.dir = .input) (hhnd : p.hnd = false) (hlvl : p.lvl = none) :
    p = Pin.idle := by
  cases p
  simp_all [Pin.idle]

/-- A pin that is not acquired has its reset value (R24, R25). -/
theorem PinsOk.idle_of_not_acq {s : State} (h : PinsOk s) (hacq : ∀ r, (s.pin.get r).acq = false) :
    s.pin = every Pin.idle := by
  refine PerRole.ext_get fun r => ?_
  obtain ⟨hdir, hhnd, hlvl⟩ := (h r).2 (hacq r)
  rw [every_get]
  exact eq_idle (hacq r) hdir hhnd hlvl

theorem idle_not_acq {s : State} (h : s.pin = every Pin.idle) (r : Role) : (s.pin.get r).acq = false := by
  rw [h, every_get]
  rfl

/-- Without a binding record no role is active, so no pin is acquired. -/
theorem PinsOk.not_acq_of_unbound {s : State} (h : PinsOk s) (hunbound : Unbound s) (r : Role) :
    (s.pin.get r).acq = false := by
  obtain ⟨-, -, hactive, -⟩ := hunbound
  cases hacq : (s.pin.get r).acq with
  | false => rfl
  | true =>
    have hr := h.active_of_acq hacq
    rw [hactive, every_get] at hr
    cases hr

theorem Steady.bound {s : State} (h : Steady s) (hphase : s.phase = .pinsBound ∨ s.phase.ready = true) : Bound s := by
  obtain ⟨-, -, hbound⟩ := h.binding
  exact hbound hphase

theorem FaultOk.not_valid {s : State} (h : FaultOk s) (hfailed : s.phase ≠ .failed) (hreleased : s.phase ≠ .released) :
    s.fault.valid = false := by
  cases hvalid : s.fault.valid with
  | false => rfl
  | true =>
    obtain ⟨hphase, -⟩ := h.1 hvalid
    exact absurd hphase (not_or.2 ⟨hfailed, hreleased⟩)

/-- FAULT is at reset in every phase but Failed and Released (R26, R116). -/
theorem FaultOk.to_phase {s t : State} (h : FaultOk s) (hfailed : s.phase ≠ .failed) (hreleased : s.phase ≠ .released)
    (hfault : t.fault = s.fault) (ht : t.phase ≠ .failed) : FaultOk t := by
  have hvalid := h.not_valid hfailed hreleased
  obtain ⟨hnone, -⟩ := h.2 hvalid
  unfold FaultOk
  rw [hfault]
  exact ⟨fun hv => absurd (hvalid.symm.trans hv) (by decide), fun _ => ⟨hnone, ht⟩⟩

/-! ### The operations that keep it -/

/-- BUSY, CUR, UPC, the position and the host's moves are no part of it. -/
theorem Steady.moved {s : State} (h : Steady s) (busy : Bool) (cur : Option Word16) (upc : Nat) (plan : List Prim)
    (stage : Nat) (fin : Finish) (host : List HostMove) :
    Steady { s with
      busy := busy, cur := cur, upc := upc, plan := plan, stage := stage, fin := fin, host := host } :=
  ⟨h.phase, h.binding, h.pins, h.fault, h.resp, h.words, h.stamps⟩

theorem Steady.endCommand {s : State} (h : Steady s) : Steady (endCommand respOk s) :=
  ⟨h.phase, h.binding, h.pins, h.fault, .inl rfl, h.words, h.stamps⟩

theorem Steady.observe {s : State} (h : Steady s) (r : Role) (e : Edge) (d : Draw) : Steady (observe r e d s) := by
  obtain ⟨l1, l2, hs⟩ := observe_eq_latches r e d s
  rw [hs]
  exact ⟨h.phase, h.binding, h.pins, h.fault, h.resp, h.words, h.stamps⟩

theorem words_later {s : State} (h : Steady s) (d : Nat) :
    ∀ x ∈ s.trace, (∃ i, decodeTrace x.1 = .ok i) ∧ x.2 ≤ s.now + d :=
  fun x hx => (h.words x hx).imp_right fun hnow => Nat.le_add_right_of_le hnow

theorem Steady.sleepBound {s : State} (h : Steady s) (b : Nat) : Steady (sleepBound b s) :=
  ⟨h.phase, h.binding, h.pins, h.fault, h.resp, words_later h b, h.stamps⟩

/-- A primitive's word is a trace word, and its stamp is not before any other (R55 (a), R79). -/
theorem Steady.emit {s : State} (h : Steady s) (p : Prim) : Steady (emit (encode p.toInstr) s) where
  phase := h.phase
  binding := h.binding
  pins := h.pins
  fault := h.fault
  resp := h.resp
  words := by
    intro x hx
    rcases List.mem_append.1 hx with hold | hnew
    · exact h.words x hold
    · rw [List.mem_singleton.1 hnew]
      exact ⟨⟨_, decodeTrace_toInstr p⟩, le_rfl⟩
  stamps := by
    refine List.pairwise_append.2 ⟨h.stamps, List.pairwise_singleton _ _, fun x hx y hy => ?_⟩
    rw [List.mem_singleton.1 hy]
    exact (h.words x hx).2

/-- A pin may take any value that R25 allows. -/
theorem Steady.setPin {s : State} (h : Steady s) {r : Role} {p : Pin}
    (hacq : p.acq = true → p.dir = .output ∧ p.hnd = true ∧ s.active.get r = true ∧ s.bind.get r ≠ none)
    (hnot : p.acq = false → p.dir = .input ∧ p.hnd = false ∧ p.lvl = none) : Steady (setPin r p s) where
  phase := h.phase
  binding := h.binding
  pins := by
    intro q
    rw [setPin_pin, PerRole.get_set]
    split
    · next hq =>
      subst hq
      exact ⟨hacq, hnot⟩
    · exact h.pins q
  fault := h.fault
  resp := h.resp
  words := h.words
  stamps := h.stamps

theorem Steady.setPin_idle {s : State} (h : Steady s) (r : Role) : Steady (Machine.setPin r Pin.idle s) :=
  h.setPin nofun fun _ => ⟨rfl, rfl, rfl⟩

/-- An active role has an id (R21, R22). -/
theorem Steady.setPin_acquired {s : State} (h : Steady s) {r : Role} (hbound : Bound s) (hr : s.active.get r = true) :
    Steady (Machine.setPin r Pin.acquired s) := by
  have hid : s.bind.get r ≠ none := Option.isSome_iff_ne_none.1 ((hbound.ids r).symm.trans hr)
  exact h.setPin (fun _ => ⟨rfl, rfl, hr, hid⟩) nofun

theorem Steady.setLvl {s : State} (h : Steady s) {r : Role} (hacq : (s.pin.get r).acq = true) (l : Option Bool) :
    Steady (setLvl r l s) :=
  h.setPin (h.pins r).1 fun hnot => absurd (hacq.symm.trans hnot) (by decide)

/-- The ready phases are none of the others. -/
theorem Phase.ne_of_ready {p : Phase} (h : p.ready = true) :
    p ≠ .reserved ∧ p ≠ .unconfigured ∧ p ≠ .pinsBound ∧ p ≠ .released ∧ p ≠ .failed := by
  cases p <;> simp [Phase.ready] at h ⊢

/-- The phase goes on from PinsBound or a ready phase to a ready phase; HOOKS is no part of it. -/
theorem Steady.toReady {s : State} (h : Steady s) (hphase : s.phase = .pinsBound ∨ s.phase.ready = true) {p : Phase}
    (hp : p.ready = true) (hooks : BitVec 2) : Steady { s with phase := p, hooks := hooks } := by
  obtain ⟨hreserved, hunconfigured, -, hreleased, hfailed⟩ := Phase.ne_of_ready hp
  have hs : s.phase ≠ .failed ∧ s.phase ≠ .released := by
    rcases hphase with hbound | hready
    · rw [hbound]
      exact ⟨nofun, nofun⟩
    · obtain ⟨-, -, -, hreleased, hfailed⟩ := Phase.ne_of_ready hready
      exact ⟨hfailed, hreleased⟩
  exact {
    phase := hreserved
    binding := ⟨fun h => absurd h (not_or.2 ⟨hunconfigured, hreleased⟩), fun h => absurd h hfailed, fun _ => h.bound hphase⟩
    pins := h.pins
    fault := h.fault.to_phase hs.1 hs.2 rfl hfailed
    resp := h.resp
    words := h.words
    stamps := h.stamps }

/-- The fault procedure leaves Released and leads every other phase to Failed (R116). -/
theorem raise_phase_cases (c : FaultCode) (role : Option Role) (id : Option Nat) (s : State) :
    (s.phase = .released ∧ (raise c role id s).phase = .released) ∨
    (s.phase ≠ .released ∧ (raise c role id s).phase = .failed) := by
  by_cases h : s.phase = .released
  · exact .inl ⟨h, by rw [raise_phase, if_pos h]⟩
  · exact .inr ⟨h, by rw [raise_phase, if_neg h]⟩

/-- The fault procedure leaves the binding record as it is, in Failed or Released (R116). -/
theorem Steady.raise {s : State} (h : Steady s) (c : FaultCode) (role : Option Role) (id : Option Nat) :
    Steady (raise c role id s) where
  phase := by
    rcases raise_phase_cases c role id s with ⟨-, ht⟩ | ⟨-, ht⟩ <;> rw [ht] <;> nofun
  binding := by
    obtain ⟨hunbound, hfailed, hbound⟩ := h.binding
    have hbinding : Unbound s ∨ Bound s := by
      cases hphase : s.phase with
      | unconfigured => exact .inl (hunbound (.inl hphase))
      | released => exact .inl (hunbound (.inr hphase))
      | failed => exact hfailed hphase
      | pinsBound => exact .inr (hbound (.inl hphase))
      | pinsAcquired | controllerBroughtUp | operational => exact .inr (hbound (.inr (by rw [hphase]; rfl)))
      | reserved => exact absurd hphase h.phase
    unfold BindingOk
    rcases raise_phase_cases c role id s with ⟨hreleased, ht⟩ | ⟨-, ht⟩ <;> rw [ht]
    · exact ⟨fun _ => hunbound (.inr hreleased), nofun, by simp [Phase.ready]⟩
    · exact ⟨by simp, fun _ => hbinding, by simp [Phase.ready]⟩
  pins := h.pins
  fault := by
    have hphase : (Machine.raise c role id s).phase = .failed ∨ (Machine.raise c role id s).phase = .released := by
      rcases raise_phase_cases c role id s with ⟨-, ht⟩ | ⟨-, ht⟩
      · exact .inr ht
      · exact .inl ht
    unfold FaultOk
    rw [raise_fault, recordFault]
    split
    · next hvalid =>
      obtain ⟨-, hcode⟩ := h.fault.1 hvalid
      exact ⟨fun _ => ⟨hphase, hcode⟩, fun hnot => absurd (hvalid.symm.trans hnot) (by decide)⟩
    · exact ⟨fun _ => ⟨hphase, c, rfl⟩, nofun⟩
  resp := .inr ⟨c, rfl⟩
  words := h.words
  stamps := h.stamps

/-- With every pin released the binding record may be freed (R110). -/
theorem Steady.freeBinding {s : State} (h : Steady s) (hpins : ∀ r, (s.pin.get r).acq = false) :
    Steady (freeBinding s) where
  phase := nofun
  binding := ⟨fun _ => ⟨rfl, rfl, rfl, rfl⟩, nofun, by simp [Phase.ready]⟩
  pins := fun r => ⟨fun hacq => absurd ((hpins r).symm.trans hacq) (by decide), (h.pins r).2⟩
  fault := by
    refine ⟨fun hvalid => ⟨.inr rfl, (h.fault.1 hvalid).2⟩, fun hnot => ⟨(h.fault.2 hnot).1, nofun⟩⟩
  resp := h.resp
  words := h.words
  stamps := h.stamps

/-! ### The invariant where a command ends, and as time passes -/

/-- The fault procedure leads to the invariant (R116). -/
theorem Steady.raise_invariant {s : State} (h : Steady s) (c : FaultCode) (role : Option Role) (id : Option Nat) :
    Invariant (Machine.raise c role id s) := by
  have hsteady := h.raise c role id
  have hphase : (Machine.raise c role id s).phase ≠ .pinsBound ∧ (Machine.raise c role id s).phase.ready ≠ true := by
    rcases raise_phase_cases c role id s with ⟨-, ht⟩ | ⟨-, ht⟩ <;> rw [ht] <;> exact ⟨nofun, nofun⟩
  obtain ⟨hnotBound, hnotReady⟩ := hphase
  exact {
    phase := hsteady.phase, binding := hsteady.binding, pins := hsteady.pins, fault := hsteady.fault
    resp := hsteady.resp, words := hsteady.words, stamps := hsteady.stamps
    free := fun h => absurd h hnotBound
    low := fun h => absurd h hnotBound
    ready := fun h => absurd h hnotReady
    enables := fun h => absurd h hnotReady
    idle := fun _ => ⟨rfl, rfl, rfl, rfl, rfl⟩
    running := nofun }

/-- Every active pin is acquired with a defined level (R37). -/
def ActiveAcquired (s : State) : Prop :=
  ∀ r, s.active.get r = true → (s.pin.get r).acq = true ∧ (s.pin.get r).lvl ≠ none

/-- The enables are low for what is still to come (R92). -/
def EnablesSafe (s : State) (plan : List Prim) : Prop :=
  enablesSafe (isHigh s.pin.en.lvl) (isHigh s.pin.en2.lvl) plan = true

/-- The end of a command without a fault leads to the invariant when the pins are as the phase wants them (R37, R40, R92). -/
theorem Steady.endCommand_invariant {s : State} (h : Steady s)
    (hfree : s.phase = .pinsBound → s.pin = every Pin.idle)
    (hready : s.phase.ready = true → ActiveAcquired s ∧ EnablesSafe s []) :
    Invariant (Machine.endCommand respOk s) where
  phase := h.phase
  binding := h.binding
  pins := h.pins
  free := fun hphase _ _ => hfree hphase
  low := fun hphase r hacq => absurd ((idle_not_acq (hfree hphase) r).symm.trans hacq) (by decide)
  ready := fun hphase _ => (hready hphase).1
  enables := fun hphase _ => (hready hphase).2
  idle := fun _ => ⟨rfl, rfl, rfl, rfl, rfl⟩
  running := nofun
  fault := h.fault
  resp := .inl rfl
  words := h.words
  stamps := h.stamps

/-- The invariant looks neither at the host's moves nor at how late it is. -/
theorem Invariant.later {s : State} (h : Invariant s) (d : Draw) (moves : List HostMove) :
    Invariant (elapse d { s with host := moves }) where
  phase := h.phase
  binding := h.binding
  pins := h.pins
  free := h.free
  low := h.low
  ready := h.ready
  enables := h.enables
  idle := h.idle
  running := h.running
  fault := h.fault
  resp := h.resp
  words := words_later h.steady d.dur
  stamps := h.stamps

end Sys2Proof.Machine

/-! # Inside a command

A running command acquires (ACQALL), releases (CLOSE, and an ACQALL that unwinds) or transmits (BRINGUP, SEND, BL). Each mode
is a structure of its own, ties to `Invariant` both ways, and is kept by the steps of its primitives. -/

namespace Sys2Proof.Machine

/-- ACQALL: the roles `before` are acquired, the roles `after` are still to come (R103). -/
structure Acquiring (s : State) (before after : List Role) : Prop where
  busy  : s.busy = true
  fin   : s.fin = .acquired
  cur   : s.cur = some (encode .acqall)
  phase : s.phase = .pinsBound
  stage : s.stage < 3
  roles : acqOrder.filter s.active.get = before ++ after
  plan  : s.plan = after.map .acq
  taken : ∀ r, (s.pin.get r).acq = true ↔ r ∈ before
  low   : ∀ r, (s.pin.get r).acq = true → (s.pin.get r).lvl = some false

/-- The command that releases: CLOSE, or an ACQALL that failed (R104, R110). -/
def ReleasingCommand (s : State) : Prop :=
  (s.fin = .closed ∧ s.cur = some (encode .close) ∧ s.phase ≠ .released ∧
    (s.phase = .pinsBound → s.pin = every Pin.idle)) ∨
  ∃ r, s.fin = .unavailable r ∧ s.cur = some (encode .acqall) ∧ s.phase = .pinsBound ∧ s.active.get r = true

/-- CLOSE, or the unwinding of a failed ACQALL: every pin that is still acquired is still to be released. -/
structure Releasing (s : State) : Prop where
  busy    : s.busy = true
  stage   : s.stage < 3
  plan    : ∀ p ∈ s.plan, ∃ q, p = .rel q ∧ s.active.get q = true
  covers  : ∀ q, (s.pin.get q).acq = true → .rel q ∈ s.plan
  low     : s.phase = .pinsBound → ∀ r, (s.pin.get r).acq = true → (s.pin.get r).lvl = some false
  command : ReleasingCommand s

/-- The command that transmits: BRINGUP in PinsAcquired, or SEND or BL in Operational (R40). -/
def TransmittingCommand (s : State) : Prop :=
  (s.fin = .broughtUp ∧ s.cur = some (encode .bringup) ∧ s.phase = .pinsAcquired) ∨
  (s.fin = .done ∧ ((∃ tgt mode v, s.cur = some (encode (.send tgt mode v))) ∨ ∃ b, s.cur = some (encode (.bl b))) ∧
    s.phase = .operational)

/-- BRINGUP, SEND or BL: delays and writes of active roles are to come, safe for the enables. -/
structure Transmitting (s : State) : Prop where
  busy    : s.busy = true
  stage   : s.stage = 0
  plan    : ∀ p ∈ s.plan, isTransmission s.active p = true
  ready   : ActiveAcquired s
  enables : EnablesSafe s s.plan
  command : TransmittingCommand s

/-- The three modes of a running command. -/
inductive InCommand (s : State) : Prop where
  | acquiring (before after : List Role) : Acquiring s before after → InCommand s
  | releasing : Releasing s → InCommand s
  | transmitting : Transmitting s → InCommand s

theorem TransmittingCommand.ready {s : State} (h : TransmittingCommand s) : s.phase.ready = true := by
  rcases h with ⟨-, -, hphase⟩ | ⟨-, -, hphase⟩ <;> rw [hphase] <;> rfl

/-! ### The modes and the invariant -/

/-- What a running state owes the invariant beside the steady part and the account of its position. -/
theorem Steady.invariant {s : State} (h : Steady s) (hbusy : s.busy = true)
    (hfree : s.phase = .pinsBound → s.fin ≠ .acquired → (∀ r, s.fin ≠ .unavailable r) → s.pin = every Pin.idle)
    (hlow : s.phase = .pinsBound → ∀ r, (s.pin.get r).acq = true → (s.pin.get r).lvl = some false)
    (hready : s.phase.ready = true → s.fin ≠ .closed → ActiveAcquired s ∧ EnablesSafe s s.plan)
    (hrunning : Running s) : Invariant s where
  phase := h.phase
  binding := h.binding
  pins := h.pins
  free := hfree
  low := hlow
  ready := fun hphase hfin => (hready hphase hfin).1
  enables := fun hphase hfin => (hready hphase hfin).2
  idle := fun hidle => absurd (hbusy.symm.trans hidle) (by decide)
  running := fun _ => hrunning
  fault := h.fault
  resp := h.resp
  words := h.words
  stamps := h.stamps

theorem pinsBound_not_ready {s : State} (h : s.phase = .pinsBound) : s.phase.ready ≠ true := by
  rw [h]
  nofun

theorem Acquiring.invariant {s : State} {before after : List Role} (hs : Steady s) (h : Acquiring s before after)
    (hplan : s.plan ≠ []) : Invariant s := by
  refine hs.invariant h.busy (fun _ hfin => absurd h.fin hfin) (fun _ => h.low)
    (fun hready => absurd hready (pinsBound_not_ready h.phase)) ?_
  have hafter : after ≠ [] := by
    rintro rfl
    exact hplan h.plan
  unfold Running
  rw [h.fin]
  exact ⟨h.cur, h.phase, h.stage, before, after, h.roles, hafter, h.plan, h.taken⟩

theorem Releasing.invariant {s : State} (hs : Steady s) (h : Releasing s) (hplan : s.plan ≠ []) : Invariant s := by
  rcases h.command with ⟨hfin, hcur, hphase, hfree⟩ | ⟨r, hfin, hcur, hphase, hr⟩
  · refine hs.invariant h.busy (fun hbound _ _ => hfree hbound) h.low (fun _ hclosed => absurd hfin hclosed) ?_
    unfold Running
    rw [hfin]
    exact ⟨hcur, hphase, h.stage, hplan, h.plan, h.covers⟩
  · refine hs.invariant h.busy (fun _ _ hnot => absurd hfin (hnot r)) h.low
      (fun hready => absurd hready (pinsBound_not_ready hphase)) ?_
    unfold Running
    rw [hfin]
    exact ⟨hcur, hphase, h.stage, hr, hplan, h.plan, h.covers⟩

theorem Transmitting.invariant {s : State} (hs : Steady s) (h : Transmitting s) (hplan : s.plan ≠ []) : Invariant s := by
  obtain ⟨-, -, hnotBound, -⟩ := Phase.ne_of_ready h.command.ready
  refine hs.invariant h.busy (fun hbound => absurd hbound hnotBound) (fun hbound => absurd hbound hnotBound)
    (fun _ _ => ⟨h.ready, h.enables⟩) ?_
  unfold Running
  rcases h.command with ⟨hfin, hcur, hphase⟩ | ⟨hfin, hcur, hphase⟩ <;> rw [hfin]
  · exact ⟨hcur, hphase, h.stage, hplan, h.plan⟩
  · exact ⟨hcur, hphase, h.stage, hplan, h.plan⟩

/-- A mode with something left to do meets the invariant. -/
theorem InCommand.invariant {s : State} (hs : Steady s) (h : InCommand s) (hplan : s.plan ≠ []) : Invariant s := by
  cases h with
  | acquiring before after h => exact h.invariant hs hplan
  | releasing h => exact h.invariant hs hplan
  | transmitting h => exact h.invariant hs hplan

/-- A running state of the invariant is in a mode. -/
theorem Invariant.inCommand {s : State} (h : Invariant s) (hbusy : s.busy = true) : InCommand s := by
  have hrunning := h.running hbusy
  unfold Running at hrunning
  split at hrunning
  · next hfin =>
    obtain ⟨hcur, hphase, hstage, before, after, hroles, -, hplan, htaken⟩ := hrunning
    exact .acquiring before after ⟨hbusy, hfin, hcur, hphase, hstage, hroles, hplan, htaken, h.low hphase⟩
  · next r hfin =>
    obtain ⟨hcur, hphase, hstage, hr, -, hplan, hcovers⟩ := hrunning
    exact .releasing ⟨hbusy, hstage, hplan, hcovers, h.low, .inr ⟨r, hfin, hcur, hphase, hr⟩⟩
  · next hfin =>
    obtain ⟨hcur, hphase, hstage, -, hplan⟩ := hrunning
    have hready : s.phase.ready = true := by rw [hphase]; rfl
    have hopen : s.fin ≠ .closed := by rw [hfin]; nofun
    exact .transmitting ⟨hbusy, hstage, hplan, h.ready hready hopen, h.enables hready hopen, .inl ⟨hfin, hcur, hphase⟩⟩
  · next hfin =>
    obtain ⟨hcur, hphase, hstage, -, hplan⟩ := hrunning
    have hready : s.phase.ready = true := by rw [hphase]; rfl
    have hopen : s.fin ≠ .closed := by rw [hfin]; nofun
    exact .transmitting ⟨hbusy, hstage, hplan, h.ready hready hopen, h.enables hready hopen, .inr ⟨hfin, hcur, hphase⟩⟩
  · next hfin =>
    obtain ⟨hcur, hphase, hstage, -, hplan, hcovers⟩ := hrunning
    have hfree (hbound : s.phase = .pinsBound) : s.pin = every Pin.idle :=
      h.free hbound (by rw [hfin]; nofun) (by rw [hfin]; nofun)
    exact .releasing ⟨hbusy, hstage, hplan, hcovers, h.low, .inl ⟨hfin, hcur, hphase, hfree⟩⟩

/-! ### The end of a command -/

/-- An enable is low when an acquired pin is low and a released one has no level. -/
theorem isHigh_of_low {s : State} (hs : Steady s)
    (hlow : ∀ r, (s.pin.get r).acq = true → (s.pin.get r).lvl = some false) (r : Role) :
    isHigh (s.pin.get r).lvl = false := by
  cases hacq : (s.pin.get r).acq with
  | true => rw [hlow r hacq]; rfl
  | false => rw [hs.pins.lvl_of_not_acq hacq]; rfl

theorem mem_acqOrder (r : Role) : r ∈ acqOrder := by
  cases r <;> decide

theorem mem_relOrder (r : Role) : r ∈ relOrder := by
  cases r <;> decide

/-- ACQALL ends with every active pin acquired and low (R103). -/
theorem Acquiring.finish {s : State} {before : List Role} (hs : Steady s) (h : Acquiring s before []) :
    Invariant (finish s.fin s) := by
  rw [h.fin]
  refine (hs.toReady (.inl h.phase) (p := .pinsAcquired) rfl s.hooks).endCommand_invariant nofun fun _ => ⟨fun r hr => ?_, ?_⟩
  · have hbefore : r ∈ before := by
      rw [← List.append_nil before, ← h.roles]
      exact List.mem_filter.2 ⟨mem_acqOrder r, hr⟩
    have hacq := (h.taken r).2 hbefore
    exact ⟨hacq, by rw [h.low r hacq]; nofun⟩
  · have hen := isHigh_of_low hs h.low .en
    have hen2 := isHigh_of_low hs h.low .en2
    show (!isHigh s.pin.en.lvl && !isHigh s.pin.en2.lvl) = true
    rw [show isHigh s.pin.en.lvl = false from hen, show isHigh s.pin.en2.lvl = false from hen2]
    rfl

/-- When nothing is left to release, no pin is acquired; CLOSE frees the binding, ACQALL faults (R104, R110). -/
theorem Releasing.finish {s : State} (hs : Steady s) (h : Releasing s) (hplan : s.plan = []) :
    Invariant (finish s.fin s) := by
  have hpins (r : Role) : (s.pin.get r).acq = false := by
    refine Bool.eq_false_iff.2 fun hacq => ?_
    have hmem := h.covers r hacq
    rw [hplan] at hmem
    cases hmem
  rcases h.command with ⟨hfin, -⟩ | ⟨r, hfin, -⟩ <;> rw [hfin]
  · exact (hs.freeBinding hpins).endCommand_invariant nofun nofun
  · exact hs.raise_invariant _ _ _

theorem Transmitting.finish {s : State} (hs : Steady s) (h : Transmitting s) (hplan : s.plan = []) :
    Invariant (finish s.fin s) := by
  have henables : EnablesSafe s [] := hplan ▸ h.enables
  rcases h.command with ⟨hfin, -, hphase⟩ | ⟨hfin, -, hphase⟩ <;> rw [hfin]
  · have hready : s.phase = .pinsBound ∨ s.phase.ready = true := .inr h.command.ready
    exact (hs.toReady hready (p := .controllerBroughtUp) rfl s.hooks).endCommand_invariant nofun
      fun _ => ⟨h.ready, henables⟩
  · refine hs.endCommand_invariant (fun hbound => ?_) fun _ => ⟨h.ready, henables⟩
    rw [hphase] at hbound
    cases hbound

/-- A mode with nothing left to do ends in the invariant. -/
theorem InCommand.finish {s : State} (hs : Steady s) (h : InCommand s) (hplan : s.plan = []) :
    Invariant (finish s.fin s) := by
  cases h with
  | acquiring before after h =>
    obtain rfl : after = [] := List.map_eq_nil_iff.1 (h.plan.symm.trans hplan)
    exact h.finish hs
  | releasing h => exact h.finish hs hplan
  | transmitting h => exact h.finish hs hplan

/-- The closing action does not look at the position. -/
theorem finish_position (f g : Finish) (plan : List Prim) (stage upc : Nat) (s : State) :
    finish f { s with plan := plan, fin := g, stage := stage, upc := upc } = finish f s := by
  cases f <;> rfl

/-- The end of a primitive keeps the invariant when what remains is in a mode. -/
theorem InCommand.continueWith {s : State} {plan : List Prim} {f : Finish} (hs : Steady s)
    (h : InCommand { s with plan := plan, fin := f, stage := 0, upc := s.upc + 1 }) :
    Invariant (continueWith plan f s) := by
  have hmoved := hs.moved s.busy s.cur (s.upc + 1) plan 0 f s.host
  cases plan with
  | nil =>
    rw [continueWith_nil, ← finish_position f f [] 0 (s.upc + 1)]
    exact h.finish hmoved rfl
  | cons p ps =>
    rw [continueWith_cons]
    exact h.invariant hmoved nofun

theorem advance_eq {s : State} {p : Prim} {ps : List Prim} (h : s.plan = p :: ps) :
    advance s = continueWith ps s.fin s := by
  rw [advance, h]
  rfl

end Sys2Proof.Machine

/-! # A primitive step keeps the invariant -/

namespace Sys2Proof.Machine

/-! ### Acquiring (R81, R103, R104) -/

/-- The elements that a filter puts before one of its elements stand before it in the list. -/
theorem mem_takeWhile_of_filter {l before after : List Role} {p : Role → Bool} {r q : Role} (hnodup : l.Nodup)
    (h : l.filter p = before ++ r :: after) (hq : q ∈ before) : q ∈ l.takeWhile (fun x => x != r) := by
  induction l generalizing before with
  | nil => simp at h
  | cons a l ih =>
    obtain ⟨ha, hnodup⟩ := List.nodup_cons.1 hnodup
    have hne (hr : r ∈ l.filter p) : (a != r) = true := by
      refine bne_iff_ne.2 ?_
      rintro rfl
      exact ha (List.mem_of_mem_filter hr)
    by_cases hpa : p a = true
    · rw [List.filter_cons_of_pos hpa] at h
      cases before with
      | nil => cases hq
      | cons b before =>
        obtain ⟨rfl, htail⟩ := List.cons.inj h
        rw [List.takeWhile_cons_of_pos (p := fun x => x != r) (hne (by simp [htail]))]
        rcases List.mem_cons.1 hq with rfl | hq
        · exact List.mem_cons_self
        · exact List.mem_cons_of_mem _ (ih hnodup htail hq)
    · rw [List.filter_cons_of_neg hpa] at h
      rw [List.takeWhile_cons_of_pos (p := fun x => x != r) (hne (by simp [h]))]
      exact List.mem_cons_of_mem _ (ih hnodup h hq)

/-- Unwinding releases active roles, those before r in ACQ_ORDER (R104). -/
theorem mem_unwindSeq (params : Params) (active : PerRole Bool) (r : Role) (p : Prim) :
    p ∈ unwindSeq params active r ↔ params.unwind = true ∧
      ∃ q, p = .rel q ∧ q ∈ acqOrder.takeWhile (fun x => x != r) ∧ active.get q = true := by
  unfold unwindSeq
  split
  · next h =>
    simp only [h, true_and, List.mem_map, List.mem_reverse, List.mem_filter]
    exact exists_congr fun q => ⟨fun ⟨⟨hq, hactive⟩, hp⟩ => ⟨hp.symm, hq, hactive⟩,
      fun ⟨hp, hq, hactive⟩ => ⟨⟨hq, hactive⟩, hp.symm⟩⟩
  · next h => simp [h]

theorem Acquiring.role_active {s : State} {before after : List Role} {r : Role} (h : Acquiring s before (r :: after)) :
    s.active.get r = true := by
  have hr : r ∈ acqOrder.filter s.active.get := by simp [h.roles]
  exact (List.mem_filter.1 hr).2

theorem Acquiring.before_active {s : State} {before after : List Role} (h : Acquiring s before after) {q : Role}
    (hq : q ∈ before) : s.active.get q = true := by
  have hmem : q ∈ acqOrder.filter s.active.get := by
    rw [h.roles]
    exact List.mem_append_left _ hq
  exact (List.mem_filter.1 hmem).2

/-- A failed Acquire(r): the fault at once, or the release of every pin acquired so far. -/
theorem Acquiring.acquireFailed {s : State} {before after : List Role} {r : Role} (hs : Steady s)
    (h : Acquiring s before (r :: after)) : Invariant (acquireFailed r s) := by
  rcases acquireFailed_cases r s with ⟨-, ht⟩ | ⟨p, ps, hunwind, ht⟩ <;> rw [ht]
  · exact hs.raise_invariant _ _ _
  · have hmem (x : Prim) := hunwind ▸ mem_unwindSeq s.params s.active r x
    obtain ⟨hon, -⟩ := (hmem p).1 List.mem_cons_self
    have hreleasing : Releasing { s with plan := p :: ps, fin := .unavailable r, stage := 0, upc := s.upc + 1 } := {
      busy := h.busy
      stage := Nat.zero_lt_succ 2
      plan := fun x hx => by
        obtain ⟨-, q, hq, -, hactive⟩ := (hmem x).1 hx
        exact ⟨q, hq, hactive⟩
      covers := fun q hacq => by
        have hbefore := (h.taken q).1 hacq
        exact (hmem _).2 ⟨hon, q, rfl, mem_takeWhile_of_filter (by decide) h.roles hbefore, h.before_active hbefore⟩
      low := fun _ => h.low
      command := .inr ⟨r, rfl, h.cur, h.phase, h.role_active⟩ }
    exact hreleasing.invariant (hs.moved s.busy s.cur (s.upc + 1) (p :: ps) 0 (.unavailable r) s.host) nofun

/-- A successful Acquire(r) moves r to the acquired roles. -/
theorem Acquiring.acquired {s : State} {before after : List Role} {r : Role} (hs : Steady s)
    (h : Acquiring s before (r :: after)) : Invariant (advance (setPin r Pin.acquired s)) := by
  have hbound : Bound s := hs.bound (.inl h.phase)
  rw [advance_eq (s := setPin r Pin.acquired s) h.plan]
  refine InCommand.continueWith (hs.setPin_acquired hbound h.role_active) (.acquiring (before ++ [r]) after ?_)
  exact {
    busy := h.busy
    fin := h.fin
    cur := h.cur
    phase := h.phase
    stage := Nat.zero_lt_succ 2
    roles := by simpa using h.roles
    plan := rfl
    taken := fun q => by
      simp only [setPin_pin, PerRole.get_set, List.mem_append, List.mem_singleton]
      split
      · next hq => simp [hq, Pin.acquired]
      · next hq => simp [hq, h.taken q]
    low := fun q => by
      simp only [setPin_pin, PerRole.get_set]
      split
      · exact fun _ => rfl
      · exact h.low q }

theorem Acquiring.nextStage {s : State} {before after : List Role} {r : Role} (hs : Steady s)
    (h : Acquiring s before (r :: after)) (hstage : s.stage + 1 < 3) : Invariant (nextStage s) := by
  have hplan : s.plan ≠ [] := by rw [h.plan]; nofun
  have hnext : Acquiring (Machine.nextStage s) before (r :: after) :=
    ⟨h.busy, h.fin, h.cur, h.phase, hstage, h.roles, h.plan, h.taken, h.low⟩
  exact hnext.invariant (hs.moved s.busy s.cur (s.upc + 1) s.plan (s.stage + 1) s.fin s.host) hplan

theorem Acquiring.emit {s : State} {before after : List Role} (h : Acquiring s before after) (w : Word16) :
    Acquiring (emit w s) before after :=
  ⟨h.busy, h.fin, h.cur, h.phase, h.stage, h.roles, h.plan, h.taken, h.low⟩

theorem Acquiring.acquireStep {s : State} {before after : List Role} {r : Role} (d : Draw) (hs : Steady s)
    (h : Acquiring s before (r :: after)) : Invariant (acquireStep r d s) := by
  have hemit : Steady (Machine.emit (encode (.uacq r)) s) := hs.emit (.acq r)
  rcases acquireStep_cases r d s with
    ⟨hstage, -, ht⟩ | ⟨-, -, ht⟩ | ⟨hstage, -, ht⟩ | ⟨-, -, ht⟩ | ⟨-, ht⟩ <;> rw [ht]
  · exact (h.emit _).nextStage hemit (by simp [hstage])
  · exact (h.emit _).acquireFailed hemit
  · exact h.nextStage hs (by simp [hstage])
  · exact h.acquired hs
  · exact h.acquireFailed hs

/-! ### Releasing (R83, R104, R110) -/

/-- A role that is not acquired needs no release. -/
theorem Releasing.advance {s : State} {r : Role} {ps : List Prim} (hs : Steady s) (h : Releasing s)
    (hplan : s.plan = .rel r :: ps) (hr : (s.pin.get r).acq = false) : Invariant (advance s) := by
  have hmem {p : Prim} (hp : p ∈ ps) : p ∈ s.plan := by
    rw [hplan]
    exact List.mem_cons_of_mem _ hp
  rw [advance_eq hplan]
  refine InCommand.continueWith hs (.releasing ⟨h.busy, Nat.zero_lt_succ 2, fun p hp => h.plan p (hmem hp), fun q hacq => ?_, h.low,
    h.command⟩)
  have hq := h.covers q hacq
  rw [hplan] at hq
  rcases List.mem_cons.1 hq with heq | hrest
  · cases heq
    exact absurd (hr.symm.trans hacq) (by decide)
  · exact hrest

theorem set_idle_eq (r : Role) : (every Pin.idle).set r Pin.idle = every Pin.idle := by
  cases r <;> rfl

/-- The last request of Release(r) gives the pin its reset value; the others stay as they are. -/
theorem Releasing.setPin_idle {s : State} (h : Releasing s) (r : Role) : Releasing (setPin r Pin.idle s) := by
  have hother {q : Role} (hacq : ((s.pin.set r Pin.idle).get q).acq = true) :
      (s.pin.set r Pin.idle).get q = s.pin.get q := by
    rw [PerRole.get_set] at hacq ⊢
    split
    · next hq =>
      rw [if_pos hq] at hacq
      cases hacq
    · rfl
  refine ⟨h.busy, h.stage, h.plan, fun q hacq => h.covers q ?_, fun hbound q hacq => ?_, ?_⟩
  · exact hother hacq ▸ hacq
  · have hacq' : (s.pin.get q).acq = true := hother hacq ▸ hacq
    exact (congrArg Pin.lvl (hother hacq)).trans (h.low hbound q hacq')
  · rcases h.command with ⟨hfin, hcur, hphase, hfree⟩ | hunwind
    · refine .inl ⟨hfin, hcur, hphase, fun hbound => ?_⟩
      rw [setPin_pin, hfree hbound, set_idle_eq]
    · exact .inr hunwind

theorem Releasing.nextStage {s : State} {r : Role} {ps : List Prim} (hs : Steady s) (h : Releasing s)
    (hplan : s.plan = .rel r :: ps) (hstage : s.stage + 1 < 3) : Invariant (nextStage s) := by
  have hne : s.plan ≠ [] := by rw [hplan]; nofun
  have hnext : Releasing (Machine.nextStage s) := ⟨h.busy, hstage, h.plan, h.covers, h.low, h.command⟩
  exact hnext.invariant (hs.moved s.busy s.cur (s.upc + 1) s.plan (s.stage + 1) s.fin s.host) hne

theorem Releasing.emit {s : State} (h : Releasing s) (w : Word16) : Releasing (emit w s) :=
  ⟨h.busy, h.stage, h.plan, h.covers, h.low, h.command⟩

theorem Releasing.observe {s : State} (h : Releasing s) (r : Role) (e : Edge) (d : Draw) : Releasing (observe r e d s) := by
  obtain ⟨l1, l2, ht⟩ := observe_eq_latches r e d s
  rw [ht]
  exact ⟨h.busy, h.stage, h.plan, h.covers, h.low, h.command⟩

theorem Releasing.releaseStep {s : State} {r : Role} {ps : List Prim} (d : Draw) (hs : Steady s) (h : Releasing s)
    (hplan : s.plan = .rel r :: ps) : Invariant (releaseStep r d s) := by
  have hemit : Steady (Machine.emit (encode (.urel r)) s) := hs.emit (.rel r)
  rcases releaseStep_cases r d s with ⟨hstage, -, ht⟩ | ⟨-, hacq, ht⟩ | ⟨hstage, ht⟩ | ⟨-, ht⟩ <;> rw [ht]
  · exact ((h.emit _).observe r _ d).nextStage (hemit.observe r _ d) (by simpa using hplan) (by simp [hstage])
  · exact (h.emit _).advance hemit hplan hacq
  · exact h.nextStage hs hplan (by simp [hstage])
  · exact (h.setPin_idle r).advance (hs.setPin_idle r) hplan (by simp [Pin.idle])

/-! ### Transmitting (R82, R84, R92) -/

/-- The primitive at hand is done and what remains is safe. -/
theorem Transmitting.advance {s : State} {p : Prim} {ps : List Prim} (hs : Steady s) (hbusy : s.busy = true)
    (hplan : s.plan = p :: ps) (htransmission : ∀ q ∈ s.plan, isTransmission s.active q = true)
    (hready : ActiveAcquired s) (henables : EnablesSafe s ps) (hcommand : TransmittingCommand s) :
    Invariant (advance s) := by
  rw [advance_eq hplan]
  refine InCommand.continueWith hs (.transmitting ⟨hbusy, rfl, fun q hq => htransmission q ?_, hready, henables, hcommand⟩)
  rw [hplan]
  exact List.mem_cons_of_mem _ hq

/-- A write of a line is safe when what follows is safe after it (R92). -/
theorem enablesSafe_after_write {pin : PerRole Pin} {r : Role} {b : Bool} {ps : List Prim}
    (h : enablesSafe (isHigh pin.en.lvl) (isHigh pin.en2.lvl) (.wr r b :: ps) = true) :
    enablesSafe (isHigh (pin.set r { pin.get r with lvl := some b }).en.lvl)
      (isHigh (pin.set r { pin.get r with lvl := some b }).en2.lvl) ps = true := by
  have hlevel : isHigh (some b) = b := by cases b <;> rfl
  cases r with
  | en | en2 => simpa [enablesSafe, PerRole.set, hlevel] using h
  | rs | d4 | d5 | d6 | d7 =>
    simp only [enablesSafe, Bool.and_eq_true] at h
    exact h.2
  | bl => exact h

theorem Transmitting.written {s : State} {r : Role} {b : Bool} {ps : List Prim} (hs : Steady s) (h : Transmitting s)
    (hplan : s.plan = .wr r b :: ps) (hacq : (s.pin.get r).acq = true) : Invariant (Machine.advance (setLvl r (some b) s)) := by
  refine Transmitting.advance (hs.setLvl hacq (some b)) h.busy hplan h.plan (fun q hq => ?_) ?_ h.command
  · rw [setLvl_pin, PerRole.get_set]
    split
    · exact ⟨hacq, nofun⟩
    · exact h.ready q hq
  · exact enablesSafe_after_write (hplan ▸ h.enables)

theorem Transmitting.emit {s : State} (h : Transmitting s) (w : Word16) : Transmitting (emit w s) :=
  ⟨h.busy, h.stage, h.plan, h.ready, h.enables, h.command⟩

theorem Transmitting.observe {s : State} (h : Transmitting s) (r : Role) (e : Edge) (d : Draw) :
    Transmitting (observe r e d s) := by
  obtain ⟨l1, l2, ht⟩ := observe_eq_latches r e d s
  rw [ht]
  exact ⟨h.busy, h.stage, h.plan, h.ready, h.enables, h.command⟩

theorem Transmitting.writeStep {s : State} {r : Role} {b : Bool} {ps : List Prim} (d : Draw) (hs : Steady s)
    (h : Transmitting s) (hplan : s.plan = .wr r b :: ps) : Invariant (writeStep r b d s) := by
  have hobserve (e : Edge) : Steady (Machine.observe r e d (Machine.emit (encode (.uwr r b)) s)) :=
    (hs.emit (.wr r b)).observe r e d
  rcases writeStep_cases r b d s with ⟨hacq, -, ht⟩ | ⟨hacq, -, ht⟩ | ⟨-, ht⟩ <;> rw [ht]
  · exact ((h.emit _).observe r _ d).written (hobserve _) (by simpa using hplan) (by simpa using hacq)
  · exact ((hobserve _).setLvl (by simpa using hacq) none).raise_invariant _ _ _
  · exact hs.raise_invariant _ _ _

theorem Transmitting.delayStep {s : State} {c : DelayClass} {ps : List Prim} (hs : Steady s) (h : Transmitting s)
    (hplan : s.plan = .dly c :: ps) : Invariant (delayStep c s) := by
  have henables : EnablesSafe s (.dly c :: ps) := hplan ▸ h.enables
  exact Transmitting.advance ((hs.emit (.dly c)).sleepBound _) h.busy hplan h.plan h.ready henables h.command

/-! ### Any primitive -/

/-- The step of the primitive at hand leads from a mode to the invariant. -/
theorem InCommand.primStep {s : State} {p : Prim} {ps : List Prim} (d : Draw) (hs : Steady s) (h : InCommand s)
    (hplan : s.plan = p :: ps) : Invariant (primStep p d s) := by
  cases h with
  | acquiring before after h =>
    cases after with
    | nil => cases h.plan.symm.trans hplan
    | cons r after =>
      cases h.plan.symm.trans hplan
      exact h.acquireStep d hs
  | releasing h =>
    obtain ⟨r, rfl, -⟩ := h.plan p (hplan ▸ List.mem_cons_self)
    exact h.releaseStep d hs hplan
  | transmitting h =>
    have hp := h.plan p (hplan ▸ List.mem_cons_self)
    cases p with
    | wr r b => exact h.writeStep d hs hplan
    | dly c => exact h.delayStep hs hplan
    | acq _ | rel _ => cases hp

end Sys2Proof.Machine

/-! # The acceptance of a command keeps the invariant

An accepted command starts in its mode, so that its first primitive is a primitive step like the others; BIND and START are one
computation each. -/

namespace Sys2Proof.Machine

/-! ### The programs of the transmitting commands (R90, R91, R92) -/

/-- The enables of a target: that of the second controller only where there are two (R90). -/
theorem enables_cases {tgt : Target} {nc : Option Controllers} {es : List Role} (h : enables tgt nc = some es) :
    es = [.en] ∨ (nc = some .two ∧ (es = [.en, .en2] ∨ es = [.en2])) := by
  cases tgt with
  | first => exact .inl (Option.some.inj h).symm
  | all =>
    by_cases hnc : nc = some .two
    · rw [enables, if_pos hnc] at h
      exact .inr ⟨hnc, .inl (Option.some.inj h).symm⟩
    · rw [enables, if_neg hnc] at h
      exact .inl (Option.some.inj h).symm
  | second =>
    by_cases hnc : nc = some .two
    · rw [enables, if_pos hnc] at h
      exact .inr ⟨hnc, .inr (Option.some.inj h).symm⟩
    · rw [enables, if_neg hnc] at h
      cases h

theorem enables_active {s : State} (hbound : Bound s) {tgt : Target} {es : List Role} (h : enables tgt s.cfgNc = some es) :
    ∀ e ∈ es, s.active.get e = true := by
  obtain ⟨hen, -⟩ := hbound.required
  have hsecond (htwo : s.cfgNc = some .two) : s.active.en2 = true := by
    rw [hbound.second]
    exact decide_eq_true htwo
  rcases enables_cases h with rfl | ⟨htwo, rfl | rfl⟩
  · simpa [PerRole.get] using hen
  · simpa [PerRole.get] using And.intro hen (hsecond htwo)
  · simpa [PerRole.get] using hsecond htwo

/-- A transmission writes RS, the data lines and the enables it is given. -/
theorem isTransmission_of_mem_sendSeq {s : State} (hbound : Bound s) {es : List Role}
    (hes : ∀ e ∈ es, s.active.get e = true) (mode : Mode) (v : Byte) :
    ∀ p ∈ sendSeq es mode v, isTransmission s.active p = true := by
  obtain ⟨-, hrs, hd4, hd5, hd6, hd7⟩ := hbound.required
  have hdata (n : Nibble) : ∀ p ∈ dataWrites n, isTransmission s.active p = true := by
    simp [dataWrites, isTransmission, PerRole.get, hd4, hd5, hd6, hd7]
  have hpulse (b : Bool) : ∀ p ∈ es.map (fun e => Prim.wr e b), isTransmission s.active p = true := by
    simpa [isTransmission] using hes
  have hdelay : ∀ p ∈ [Prim.dly .t], isTransmission s.active p = true := by simp [isTransmission]
  have hnibble (n : Nibble) : ∀ p ∈ sendNibble es n, isTransmission s.active p = true := by
    simp only [sendNibble, List.forall_mem_append]
    exact ⟨⟨⟨⟨⟨⟨⟨hdata 0, hdelay⟩, hdata n⟩, hdelay⟩, hpulse true⟩, hdelay⟩, hpulse false⟩, hdelay⟩
  refine List.forall_mem_cons.2 ⟨hrs, ?_⟩
  exact List.forall_mem_append.2 ⟨hnibble _, hnibble _⟩

theorem isTransmission_of_mem_bringupSeq {s : State} (hbound : Bound s) {es : List Role}
    (hes : ∀ e ∈ es, s.active.get e = true) (v : Byte) :
    ∀ p ∈ bringupSeq es v, isTransmission s.active p = true := by
  have hsend (w : Byte) := isTransmission_of_mem_sendSeq hbound hes .instruction w
  have hdelay (c : DelayClass) : ∀ p ∈ [Prim.dly c], isTransmission s.active p = true := by simp [isTransmission]
  simp only [bringupSeq, List.forall_mem_append]
  exact ⟨⟨⟨⟨⟨hsend _, hdelay _⟩, hsend _⟩, hdelay _⟩, hsend _⟩, hdelay _⟩

/-- Safe sequences may follow one another: each leaves both enables low. -/
theorem enablesSafe_append {en en2 : Bool} {xs ys : List Prim} (hx : enablesSafe en en2 xs = true)
    (hy : enablesSafe false false ys = true) : enablesSafe en en2 (xs ++ ys) = true := by
  induction xs generalizing en en2 with
  | nil =>
    obtain ⟨rfl, rfl⟩ : en = false ∧ en2 = false := by simpa [enablesSafe] using hx
    exact hy
  | cons p ps ih =>
    rw [List.cons_append]
    cases p with
    | wr r b =>
      cases r with
      | en | en2 | bl => exact ih hx
      | rs | d4 | d5 | d6 | d7 =>
        simp only [enablesSafe, Bool.and_eq_true] at hx ⊢
        exact ⟨hx.1, ih hx.2⟩
    | dly c => exact ih hx
    | acq _ | rel _ => cases hx

theorem enablesSafe_sendSeq {tgt : Target} {nc : Option Controllers} {es : List Role} (h : enables tgt nc = some es)
    (mode : Mode) (v : Byte) : enablesSafe false false (sendSeq es mode v) = true := by
  have hnibble (n : Nibble) : enablesSafe false false (sendNibble es n) = true := by
    rcases enables_cases h with rfl | ⟨-, rfl | rfl⟩ <;> rfl
  exact enablesSafe_append (hnibble _) (hnibble _)

theorem enablesSafe_bringupSeq {tgt : Target} {nc : Option Controllers} {es : List Role} (h : enables tgt nc = some es)
    (v : Byte) : enablesSafe false false (bringupSeq es v) = true := by
  have hsend (w : Byte) := enablesSafe_sendSeq h .instruction w
  have hdelay (c : DelayClass) : enablesSafe false false [.dly c] = true := rfl
  unfold bringupSeq
  exact enablesSafe_append (enablesSafe_append (enablesSafe_append (enablesSafe_append (enablesSafe_append
    (hsend _) (hdelay _)) (hsend _)) (hdelay _)) (hsend _)) (hdelay _)

/-! ### The accepted command in its mode -/

/-- A state of the invariant in which the command word w has just been accepted. -/
structure Accepted (w : Word16) (s : State) : Prop where
  busy   : s.busy = true
  cur    : s.cur = some w
  steady : Steady s
  free   : s.phase = .pinsBound → s.pin = every Pin.idle
  ready  : s.phase.ready = true → ActiveAcquired s ∧ EnablesSafe s []

theorem Invariant.accepted {s : State} (h : Invariant s) (hidle : s.busy = false) (w : Word16) (rest : List HostMove) :
    Accepted w (accepted w { s with host := rest }) := by
  obtain ⟨-, -, hplan, -, hfin⟩ := h.idle hidle
  refine ⟨rfl, rfl, h.steady.moved true (some w) 0 s.plan s.stage s.fin rest, fun hphase => ?_, fun hphase => ?_⟩
  · exact h.free hphase (by rw [hfin]; nofun) (by rw [hfin]; nofun)
  · have hopen : s.fin ≠ .closed := by rw [hfin]; nofun
    exact ⟨h.ready hphase hopen, hplan ▸ h.enables hphase hopen⟩

/-- Between commands the enables are low, so what is safe from there is safe. -/
theorem EnablesSafe.of_low {s : State} {plan : List Prim} (hlow : EnablesSafe s [])
    (hplan : enablesSafe false false plan = true) : EnablesSafe s plan :=
  enablesSafe_append (xs := []) hlow hplan

/-- A transmitting command starts in its mode. -/
theorem Accepted.transmitting {w : Word16} {s : State} {plan : List Prim} {f : Finish} (h : Accepted w s)
    (hcommand : TransmittingCommand (starting plan f s)) (hplan : ∀ p ∈ plan, isTransmission s.active p = true)
    (hsafe : enablesSafe false false plan = true) : InCommand (starting plan f s) := by
  obtain ⟨hready, hlow⟩ := h.ready hcommand.ready
  exact .transmitting ⟨h.busy, rfl, hplan, hready, hlow.of_low hsafe, hcommand⟩

/-- ACQALL starts with no pin acquired and every active role to come (R103). -/
theorem Accepted.acquiring {s : State} (h : Accepted (encode .acqall) s) (hphase : s.phase = .pinsBound) :
    InCommand (starting (acquireSeq s.active) .acquired s) := by
  have hfree (r : Role) : (s.pin.get r).acq ≠ true := by simp [idle_not_acq (h.free hphase) r]
  exact .acquiring [] (acqOrder.filter s.active.get) {
    busy := h.busy
    fin := rfl
    cur := h.cur
    phase := hphase
    stage := Nat.zero_lt_succ 2
    roles := rfl
    plan := rfl
    taken := fun r => ⟨fun hacq => absurd hacq (hfree r), nofun⟩
    low := fun r hacq => absurd hacq (hfree r) }

/-- CLOSE starts with the release of every active role, and no other is acquired (R110). -/
theorem Accepted.closing {s : State} (h : Accepted (encode .close) s) (hphase : s.phase ≠ .released) :
    InCommand (starting (releaseSeq s.active) .closed s) := by
  refine .releasing ⟨h.busy, Nat.zero_lt_succ 2, fun p hp => ?_, fun q hacq => ?_, fun hbound r hacq => ?_,
    .inl ⟨rfl, h.cur, hphase, h.free⟩⟩
  · obtain ⟨q, hq, rfl⟩ := List.mem_map.1 hp
    exact ⟨q, rfl, (List.mem_filter.1 hq).2⟩
  · exact List.mem_map_of_mem (List.mem_filter.2 ⟨mem_relOrder q, h.steady.pins.active_of_acq hacq⟩)
  · exact absurd ((idle_not_acq (h.free hbound) r).symm.trans hacq) (by decide)

/-- A command with a program starts in its mode, except CLOSE in Released, which has nothing to do. -/
theorem Accepted.inCommand {i : Instr} {s : State} {plan : List Prim} {f : Finish} (h : Accepted (encode i) s)
    (hlegal : legal i s.phase = true) (hprogram : programOf i s = some (plan, f)) :
    InCommand (starting plan f s) ∨ (s.phase = .released ∧ plan = [] ∧ f = .done) := by
  cases i with
  | acqall =>
    cases hprogram
    exact .inl (h.acquiring (by simpa [legal] using hlegal))
  | bringup =>
    obtain ⟨es, hes, heq⟩ := Option.map_eq_some_iff.1 hprogram
    cases heq
    have hphase : s.phase = .pinsAcquired := by simpa [legal] using hlegal
    have hbound : Bound s := h.steady.bound (.inr (by rw [hphase]; rfl))
    exact .inl (h.transmitting (.inl ⟨rfl, h.cur, hphase⟩)
      (isTransmission_of_mem_bringupSeq hbound (enables_active hbound hes) _) (enablesSafe_bringupSeq hes _))
  | send tgt mode v =>
    obtain ⟨es, hes, heq⟩ := Option.map_eq_some_iff.1 hprogram
    cases heq
    have hphase : s.phase = .operational := by simpa [legal] using hlegal
    have hbound : Bound s := h.steady.bound (.inr (by rw [hphase]; rfl))
    exact .inl (h.transmitting (.inr ⟨rfl, .inl ⟨tgt, mode, v, h.cur⟩, hphase⟩)
      (isTransmission_of_mem_sendSeq hbound (enables_active hbound hes) mode v) (enablesSafe_sendSeq hes mode v))
  | bl b =>
    cases hprogram
    have hphase : s.phase = .operational := by simpa [legal] using hlegal
    refine .inl (h.transmitting (.inr ⟨rfl, .inr ⟨b, h.cur⟩, hphase⟩) ?_ ?_)
    · split
      · next hbl => simpa [isTransmission, PerRole.get] using hbl
      · nofun
    · split <;> rfl
  | close =>
    by_cases hphase : s.phase = .released
    · rw [programOf, if_pos hphase] at hprogram
      cases hprogram
      exact .inr ⟨hphase, rfl, rfl⟩
    · rw [programOf, if_neg hphase] at hprogram
      cases hprogram
      exact .inl (h.closing hphase)
  | bind | start | uacq _ | uwr _ _ | urel _ | udly _ => cases hprogram

/-! ### BIND and START -/

/-- A scan that reports no role has met distinct ids, none of them seen before (R102). -/
theorem aliasScan_none {res : Role → Nat} {seen : List Nat} {l : List Role} (h : aliasScan res seen l = none) :
    (∀ r ∈ l, res r ∉ seen) ∧ (l.map res).Nodup := by
  induction l generalizing seen with
  | nil => exact ⟨nofun, .nil⟩
  | cons r l ih =>
    unfold aliasScan at h
    split at h
    · cases h
    · next hseen =>
      obtain ⟨hnew, hnodup⟩ := ih h
      refine ⟨List.forall_mem_cons.2 ⟨by simpa using hseen, fun q hq hq' => ?_⟩, List.nodup_cons.2 ⟨fun hr => ?_, hnodup⟩⟩
      · exact hnew q hq (List.mem_cons_of_mem _ hq')
      · obtain ⟨q, hq, heq⟩ := List.mem_map.1 hr
        exact hnew q hq (heq ▸ List.mem_cons_self)

/-- When the check reports no role, the active roles have distinct ids (R54 (c), R102). -/
theorem aliasCheck_none {act : Role → Bool} {res : Role → Nat} (h : aliasCheck act res = none) {r q : Role} (hne : r ≠ q)
    (hr : act r = true) (hq : act q = true) : res r ≠ res q := by
  obtain ⟨-, hnodup⟩ := aliasScan_none h
  exact fun heq => hne (List.inj_on_of_nodup_map hnodup (List.mem_filter.2 ⟨mem_acqOrder r, hr⟩)
    (List.mem_filter.2 ⟨mem_acqOrder q, hq⟩) heq)

/-- BIND writes a whole binding record (R20, R21, R22, R101). -/
theorem bindAll_bound {s : State} (halias : aliasCheck (resolveActive s.inputs s.params) (resolve s.inputs s.params) = none) :
    Bound (bindAll s) where
  known := nofun
  light := nofun
  required := ⟨rfl, rfl, rfl, rfl, rfl, rfl⟩
  second := by
    show decide (controllerCount s.inputs = .two) = decide (some (controllerCount s.inputs) = some .two)
    simp
  ids := by
    intro r
    simp only [bindAll, PerRole.get_ofFn]
    split
    · next hr => exact hr
    · next hr => simpa using hr
  distinct := by
    intro r q hne hr hq
    simp only [bindAll, PerRole.get_ofFn] at hr hq ⊢
    rw [if_pos hr, if_pos hq]
    exact fun heq => aliasCheck_none halias hne hr hq (Option.some.inj heq)

theorem Steady.bindAll_invariant {s : State} (h : Steady s) (hphase : s.phase = .unconfigured)
    (halias : aliasCheck (resolveActive s.inputs s.params) (resolve s.inputs s.params) = none) :
    Invariant (Machine.endCommand respOk (bindAll s)) := by
  obtain ⟨hunbound, -⟩ := h.binding
  have hpins := h.pins.not_acq_of_unbound (hunbound (.inl hphase))
  have hbound := bindAll_bound halias
  have hsteady : Steady (bindAll s) := {
    phase := nofun
    binding := ⟨by simp [bindAll], nofun, fun _ => hbound⟩
    pins := fun r => ⟨fun hacq => absurd ((hpins r).symm.trans hacq) (by decide), (h.pins r).2⟩
    fault := h.fault.to_phase (by rw [hphase]; nofun) (by rw [hphase]; nofun) rfl nofun
    resp := h.resp
    words := h.words
    stamps := h.stamps }
  exact hsteady.endCommand_invariant (fun _ => h.pins.idle_of_not_acq hpins) nofun

theorem Accepted.startRule_invariant {w : Word16} {s : State} (h : Accepted w s) (hphase : s.phase = .controllerBroughtUp) :
    Invariant (startRule s) := by
  have hready : s.phase.ready = true := by rw [hphase]; rfl
  exact (h.steady.toReady (.inr hready) (p := .operational) rfl (hooksOf s.active.bl)).endCommand_invariant nofun
    fun _ => h.ready hready

/-! ### Every step -/

/-- What dispatch does to an accepted state leads to the invariant (R67). -/
theorem Accepted.dispatched {i : Instr} {d : Draw} {s t : State} (h : Accepted (encode i) s) (ht : Dispatched i d s t) :
    Invariant t := by
  cases ht with
  | runs p ps f hlegal hprogram =>
    have hstarting : Steady (starting (p :: ps) f s) := h.steady.moved s.busy s.cur s.upc (p :: ps) 0 f s.host
    rcases h.inCommand hlegal hprogram with hcommand | ⟨-, hplan, -⟩
    · exact hcommand.primStep d hstarting rfl
    · cases hplan
  | finishes f hlegal hprogram =>
    have hstarting : Steady (starting [] f s) := h.steady.moved s.busy s.cur s.upc [] 0 f s.host
    rcases h.inCommand hlegal hprogram with hcommand | ⟨hphase, -, rfl⟩
    · rw [← finish_position f f [] 0 s.upc s]
      exact hcommand.finish hstarting rfl
    · exact h.steady.endCommand_invariant (by rw [hphase]; nofun) (by rw [hphase]; nofun)
  | binds hi hphase halias => exact h.steady.bindAll_invariant hphase halias
  | starts hi hphase => exact h.startRule_invariant hphase
  | faults c role id hclose hstart => exact h.steady.raise_invariant c role id

/-- Settles O53: a primitive step leads from the running mode to the invariant, and dispatch starts a mode or ends. -/
theorem stepKeepsInvariant : Obligations.StepKeepsInvariant := by
  intro s t h hstep
  obtain ⟨-, u, heffect, rfl⟩ := step_effect hstep
  cases heffect with
  | primitive p ps hbusy hplan =>
    have hnext := (h.inCommand hbusy).primStep s.draw h.steady hplan
    exact hnext.later s.draw _
  | idles hbusy hhost => exact h.later s.draw s.host.tail
  | accepts w rest i hbusy hhost hdecode hword hdispatched =>
    subst hword
    have hnext := (h.accepted hbusy (encode i) rest).dispatched hdispatched
    exact hnext.later s.draw _
  | rejects w rest e hbusy hhost hdecode =>
    have hnext := (h.accepted hbusy w rest).steady.raise_invariant .illegalCommand none none
    exact hnext.later s.draw _

/-! ### Reachable states -/

/-- The invariant holds at reset, whatever the arguments (R129). -/
theorem instanceOf_invariant (params : Params) (inputs : Inputs) (host : List HostMove) (script : List Draw) (drawIx : Nat) :
    Invariant (instanceOf params inputs host script drawIx) where
  phase := nofun
  binding := ⟨fun _ => ⟨rfl, rfl, rfl, rfl⟩, nofun, by simp [instanceOf, State.reset, Phase.ready]⟩
  pins := by
    intro r
    simp [instanceOf, State.reset, Pin.idle]
  free := nofun
  low := nofun
  ready := nofun
  enables := nofun
  idle := fun _ => ⟨rfl, rfl, rfl, rfl, rfl⟩
  running := nofun
  fault := ⟨nofun, fun _ => ⟨rfl, nofun⟩⟩
  resp := .inl rfl
  words := nofun
  stamps := .nil

theorem Reachable.invariant {s : State} (h : Reachable s) : Invariant s := by
  induction h with
  | reset params inputs host script drawIx => exact instanceOf_invariant params inputs host script drawIx
  | step _ hstep ih => exact stepKeepsInvariant _ _ ih hstep

/-- Settles O55: R25 is a part of the invariant, which every reachable state meets. -/
theorem reachablePinsAreConsistent : Obligations.ReachablePinsAreConsistent := by
  intro s h
  exact h.invariant.pins

end Sys2Proof.Machine

/-! # The running command, its phases and its words -/

namespace Sys2Proof.Machine

/-! ### The command that a step runs -/

theorem stepCommand_of_cur {s : State} {i : Instr} (hbusy : s.busy = true) (hcommand : isCommand i = true)
    (hcur : s.cur = some (encode i)) : stepCommand s = some i := by
  simp [stepCommand, hbusy, hcur, decodePort_encode hcommand]

theorem stepCommand_of_host {s : State} {w : Word16} {rest : List HostMove} {i : Instr} (hidle : s.busy = false)
    (hhost : s.host = .issue w :: rest) (hdecode : decodePort w = .ok i) : stepCommand s = some i := by
  simp [stepCommand, hidle, hhost, hdecode]

theorem stepCommand_of_illegal {s : State} {w : Word16} {rest : List HostMove} {e : Reject} (hidle : s.busy = false)
    (hhost : s.host = .issue w :: rest) (hdecode : decodePort w = .error e) : stepCommand s = none := by
  simp [stepCommand, hidle, hhost, hdecode]

/-- The command i is at work in s: it is the command in CUR. -/
def Runs (i : Instr) (s : State) : Prop := isCommand i = true ∧ s.cur = some (encode i)

/-- CUR names one command. -/
theorem Runs.unique {i j : Instr} {s : State} (hi : Runs i s) (hj : Runs j s) : i = j := by
  obtain ⟨hi, hcuri⟩ := hi
  obtain ⟨hj, hcurj⟩ := hj
  exact command_eq_of_encode_eq hi hj (Option.some.inj (hcuri.symm.trans hcurj))

/-- BRINGUP in PinsAcquired, or SEND or BL in Operational: the command i that transmits in phase p. -/
def Transmits (i : Instr) (p : Phase) : Prop :=
  (i = .bringup ∧ p = .pinsAcquired) ∨ (((∃ tgt mode v, i = .send tgt mode v) ∨ ∃ b, i = .bl b) ∧ p = .operational)

theorem Transmits.ne {i : Instr} {p : Phase} (h : Transmits i p) : i ≠ .close ∧ i ≠ .start := by
  rcases h with ⟨rfl, -⟩ | ⟨⟨tgt, mode, v, rfl⟩ | ⟨b, rfl⟩, -⟩ <;> exact ⟨nofun, nofun⟩

/-- The command in CUR of a transmitting mode. -/
theorem TransmittingCommand.transmits {s : State} (h : TransmittingCommand s) : ∃ i, Runs i s ∧ Transmits i s.phase := by
  rcases h with ⟨-, hcur, hphase⟩ | ⟨-, ⟨tgt, mode, v, hcur⟩ | ⟨b, hcur⟩, hphase⟩
  · exact ⟨.bringup, ⟨rfl, hcur⟩, .inl ⟨rfl, hphase⟩⟩
  · exact ⟨.send tgt mode v, ⟨rfl, hcur⟩, .inr ⟨.inl ⟨tgt, mode, v, rfl⟩, hphase⟩⟩
  · exact ⟨.bl b, ⟨rfl, hcur⟩, .inr ⟨.inr ⟨b, rfl⟩, hphase⟩⟩

/-! ### PHASE (R19) -/

/-- A change of PHASE from s to t that R19's table allows for the command in CUR. -/
def TableChange (s t : State) : Prop := ∃ i, Runs i s ∧ phaseChange s.phase (some i) t.phase = true

/-- The closing action of a mode moves PHASE along a row of the table, or not at all. -/
theorem InCommand.finish_phase {s u : State} (h : InCommand s) (hphase : u.phase = s.phase)
    (hchange : (Machine.finish s.fin u).phase ≠ s.phase) : TableChange s (Machine.finish s.fin u) := by
  have hraise (c : FaultCode) (role : Option Role) (id : Option Nat) (hbound : s.phase = .pinsBound) :
      (raise c role id u).phase = .failed := by
    rw [raise_phase, if_neg (by rw [hphase, hbound]; nofun)]
  cases h with
  | acquiring before after h =>
    refine ⟨.acqall, ⟨rfl, h.cur⟩, ?_⟩
    rw [h.fin, h.phase]
    rfl
  | releasing h =>
    rcases h.command with ⟨hfin, hcur, hopen, -⟩ | ⟨r, hfin, hcur, hbound, -⟩
    · refine ⟨.close, ⟨rfl, hcur⟩, ?_⟩
      rw [hfin]
      simpa [phaseChange] using ⟨hopen, rfl⟩
    · refine ⟨.acqall, ⟨rfl, hcur⟩, ?_⟩
      rw [hfin, hbound]
      show phaseChange .pinsBound (some .acqall) (raise _ _ _ u).phase = true
      rw [hraise _ _ _ hbound]
      rfl
  | transmitting h =>
    rcases h.command with ⟨hfin, hcur, hacquired⟩ | ⟨hfin, -, -⟩
    · refine ⟨.bringup, ⟨rfl, hcur⟩, ?_⟩
      rw [hfin, hacquired]
      rfl
    · rw [hfin] at hchange
      exact absurd hphase hchange

/-- The table lets a fault of every command but CLOSE, and START outside its phase, lead to Failed (R19, R116). -/
theorem phaseChange_failed {i : Instr} {p : Phase} (hcommand : isCommand i = true) (hclose : i ≠ .close)
    (hstart : i = .start → p ≠ .controllerBroughtUp) (hp : p ≠ .released) : phaseChange p (some i) .failed = true := by
  cases i with
  | close => exact absurd rfl hclose
  | start => simp [phaseChange, hp, hstart rfl]
  | bind | acqall | bringup | send _ _ _ | bl _ => simp [phaseChange, hp]
  | uacq _ | uwr _ _ | urel _ | udly _ => cases hcommand

/-- The command at work at a primitive that is no Release is neither CLOSE nor START. -/
theorem InCommand.runs_of_not_rel {s : State} {p : Prim} {ps : List Prim} (h : InCommand s) (hplan : s.plan = p :: ps)
    (hrel : ∀ r, p ≠ .rel r) : ∃ i, Runs i s ∧ i ≠ .close ∧ i ≠ .start := by
  cases h with
  | acquiring before after h => exact ⟨.acqall, ⟨rfl, h.cur⟩, nofun, nofun⟩
  | releasing h =>
    obtain ⟨r, hp, -⟩ := h.plan p (hplan ▸ List.mem_cons_self)
    exact absurd hp (hrel r)
  | transmitting h =>
    obtain ⟨i, hruns, htransmits⟩ := h.command.transmits
    exact ⟨i, hruns, htransmits.ne⟩

/-- A primitive step of a mode moves PHASE as the table says for the command in CUR. -/
theorem InCommand.primEffect_phase {s t : State} {p : Prim} {ps : List Prim} (h : InCommand s) (hplan : s.plan = p :: ps)
    (heffect : PrimEffect p s t) (hchange : t.phase ≠ s.phase) : TableChange s t := by
  cases heffect with
  | goesOn plan fin stage htouched =>
    obtain ⟨hphase, -⟩ := htouched.untouched
    exact absurd hphase hchange
  | finishes htouched =>
    obtain ⟨hphase, -⟩ := htouched.untouched
    exact h.finish_phase hphase hchange
  | @faults u c role id htouched hrel =>
    obtain ⟨hphase, -⟩ := htouched.untouched
    obtain ⟨i, hruns, hclose, hstart⟩ := h.runs_of_not_rel hplan hrel
    refine ⟨i, hruns, ?_⟩
    rcases raise_phase_cases c role id u with ⟨hreleased, ht⟩ | ⟨hopen, ht⟩
    · exact absurd (ht.trans (hreleased.symm.trans hphase)) hchange
    · rw [ht]
      exact phaseChange_failed hruns.1 hclose (fun hi => absurd hi hstart) (hphase ▸ hopen)

/-- Dispatch moves PHASE as the table says for the accepted command. -/
theorem Accepted.dispatched_phase {i : Instr} {d : Draw} {s t : State} (h : Accepted (encode i) s)
    (hcommand : isCommand i = true) (ht : Dispatched i d s t) (hchange : t.phase ≠ s.phase) : TableChange s t := by
  have hruns : Runs i s := ⟨hcommand, h.cur⟩
  cases ht with
  | runs p ps f hlegal hprogram =>
    rcases h.inCommand hlegal hprogram with hmode | ⟨-, hplan, -⟩
    · exact hmode.primEffect_phase rfl (primStep_effect p d (starting (p :: ps) f s)) hchange
    · cases hplan
  | finishes f hlegal hprogram =>
    rcases h.inCommand hlegal hprogram with hmode | ⟨-, -, rfl⟩
    · exact hmode.finish_phase (u := s) rfl hchange
    · exact absurd rfl hchange
  | binds hi hphase halias =>
    subst hi
    exact ⟨.bind, hruns, by rw [hphase]; rfl⟩
  | starts hi hphase =>
    subst hi
    exact ⟨.start, hruns, by rw [hphase]; rfl⟩
  | faults c role id hclose hstart =>
    rcases raise_phase_cases c role id s with ⟨hreleased, ht⟩ | ⟨hopen, ht⟩
    · exact absurd (ht.trans hreleased.symm) hchange
    · exact ⟨i, hruns, by rw [ht]; exact phaseChange_failed hcommand hclose hstart hopen⟩

/-- Settles O43: the mode of the running command, or dispatch, says which row of the table the step takes. -/
theorem phaseChangesFollowTable : Obligations.PhaseChangesFollowTable := by
  intro s t h hstep hchange
  obtain ⟨-, u, heffect, rfl⟩ := step_effect hstep
  rw [elapse_phase] at hchange ⊢
  cases heffect with
  | primitive p ps hbusy hplan =>
    obtain ⟨i, ⟨hcommand, hcur⟩, htable⟩ :=
      (h.inCommand hbusy).primEffect_phase hplan (primStep_effect p s.draw s) hchange
    rw [stepCommand_of_cur hbusy hcommand hcur]
    exact htable
  | idles hbusy hhost => exact absurd rfl hchange
  | accepts w rest i hbusy hhost hdecode hword hdispatched =>
    have hcommand := decodePort_command hdecode
    subst hword
    have haccepted := h.accepted hbusy (encode i) rest
    obtain ⟨j, hruns, htable⟩ := haccepted.dispatched_phase hcommand hdispatched hchange
    obtain rfl : j = i := hruns.unique ⟨hcommand, haccepted.cur⟩
    rw [stepCommand_of_host hbusy hhost hdecode]
    exact htable
  | rejects w rest e hbusy hhost hdecode =>
    rw [stepCommand_of_illegal hbusy hhost hdecode]
    rcases raise_phase_cases .illegalCommand none none (accepted w { s with host := rest }) with
      ⟨hreleased, ht⟩ | ⟨hopen, ht⟩
    · exact absurd (ht.trans hreleased.symm) hchange
    · rw [ht]
      simpa [phaseChange] using hopen

/-! ### Which pins are acquired, and which commands transmit (R37, R40) -/

/-- Outside CLOSE the acquired roles of a ready phase are the active ones. -/
theorem Invariant.acq_eq_active {s : State} (h : Invariant s) (hready : s.phase.ready = true) (hopen : s.fin ≠ .closed)
    (r : Role) : (s.pin.get r).acq = s.active.get r := by
  cases hactive : s.active.get r with
  | true => exact (h.ready hready hopen r hactive).1
  | false =>
    refine Bool.eq_false_iff.2 fun hacq => ?_
    exact absurd (hactive.symm.trans (h.pins.active_of_acq hacq)) (by decide)

/-- Only CLOSE has the closing action that frees the binding. -/
theorem Invariant.not_closing {s : State} (h : Invariant s) (hcommand : s.busy = false ∨ stepCommand s ≠ some .close) :
    s.fin ≠ .closed := by
  intro hfin
  cases hbusy : s.busy with
  | false =>
    obtain ⟨-, -, -, -, hdone⟩ := h.idle hbusy
    cases hfin.symm.trans hdone
  | true =>
    have hrunning := h.running hbusy
    unfold Running at hrunning
    rw [hfin] at hrunning
    obtain ⟨hcur, -⟩ := hrunning
    rcases hcommand with hidle | hother
    · cases hbusy.symm.trans hidle
    · exact hother (stepCommand_of_cur hbusy rfl hcur)

/-- A mode whose next primitive emits a UWR or a UDLY word is that of a transmitting command. -/
theorem InCommand.transmits {s : State} {p : Prim} {ps : List Prim} (h : InCommand s) (hplan : s.plan = p :: ps)
    (hword : isWriteWord (encode p.toInstr) = true ∨ isDelayWord (encode p.toInstr) = true) :
    ∃ i, Runs i s ∧ Transmits i s.phase := by
  have hp := wr_or_dly_of_word hword
  have hmem : p ∈ s.plan := hplan ▸ List.mem_cons_self
  cases h with
  | acquiring before after h =>
    rw [h.plan] at hmem
    obtain ⟨r, -, rfl⟩ := List.mem_map.1 hmem
    simp at hp
  | releasing h =>
    obtain ⟨r, rfl, -⟩ := h.plan p hmem
    simp at hp
  | transmitting h => exact h.command.transmits

/-- The word a step appends is the one its primitive emits, if it emits one. -/
theorem word_of_append {old new : List (Word16 × Nat)} {v w : Word16} {n x : Nat}
    (h : new = old ∨ new = old ++ [(v, n)]) (happend : new = old ++ [(w, x)]) : w = v := by
  subst happend
  rcases h with h | h
  · simp at h
  · simpa using congrArg Prod.fst (List.cons.inj (List.append_cancel_left h)).1

/-- A step that emits a UWR or a UDLY word runs a transmitting command (R40). -/
theorem Invariant.transmission {s u : State} {w : Word16} {x : Nat} (h : Invariant s) (heffect : Effect s u)
    (htrace : u.trace = s.trace ++ [(w, x)]) (hword : isWriteWord w = true ∨ isDelayWord w = true) :
    ∃ i, stepCommand s = some i ∧ Transmits i s.phase := by
  have hno (hsame : u.trace = s.trace) : False := by simp [hsame] at htrace
  cases heffect with
  | primitive p ps hbusy hplan =>
    obtain rfl := word_of_append (primStep_effect p s.draw s).trace htrace
    obtain ⟨i, ⟨hcommand, hcur⟩, htransmits⟩ := (h.inCommand hbusy).transmits hplan hword
    exact ⟨i, stepCommand_of_cur hbusy hcommand hcur, htransmits⟩
  | idles hbusy hhost => exact (hno rfl).elim
  | accepts v rest i hbusy hhost hdecode hencode hdispatched =>
    have hcommand := decodePort_command hdecode
    subst hencode
    have haccepted := h.accepted hbusy (encode i) rest
    rcases hdispatched.trace with hsame | ⟨p, ps, f, hlegal, hprogram, hemit⟩
    · exact (hno hsame).elim
    · obtain rfl := word_of_append (.inr hemit) htrace
      rcases haccepted.inCommand hlegal hprogram with hmode | ⟨-, hplan, -⟩
      · obtain ⟨j, hruns, htransmits⟩ := hmode.transmits rfl hword
        obtain rfl : j = i := hruns.unique ⟨hcommand, haccepted.cur⟩
        exact ⟨j, stepCommand_of_host hbusy hhost hdecode, htransmits⟩
      · cases hplan
  | rejects v rest e hbusy hhost hdecode => exact (hno rfl).elim

/-- Settles O56: the invariant gives the acquired roles, and the mode of the command that emits a word its phase. -/
theorem transmissionsRunOnAcquiredPins : Obligations.TransmissionsRunOnAcquiredPins := by
  refine fun s h => ⟨fun hphase hcommand r => ?_, fun t w x hstep htrace hword => ?_⟩
  · have hready : s.phase.ready = true := by rcases hphase with hp | hp | hp <;> rw [hp] <;> rfl
    exact h.acq_eq_active hready (h.not_closing hcommand) r
  · obtain ⟨-, u, heffect, rfl⟩ := step_effect hstep
    obtain ⟨i, hi, ⟨rfl, hphase⟩ | ⟨htransmits, hphase⟩⟩ := h.transmission heffect htrace hword
    · exact .inl ⟨hi, hphase⟩
    · refine .inr ⟨?_, hphase⟩
      rw [hi]
      rcases htransmits with ⟨tgt, mode, v, rfl⟩ | ⟨b, rfl⟩
      · exact .inl ⟨tgt, mode, v, rfl⟩
      · exact .inr ⟨b, rfl⟩

end Sys2Proof.Machine

/-! # Idle intervals, and distinct ids -/

namespace Sys2Proof.Machine

/-! ### Idle intervals (R56) -/

/-- While BUSY = 0 the move is the host's (R66). -/
theorem step_eq_hostMove {s : State} (hphase : s.phase ≠ .reserved) (hbusy : s.busy = false) : step s = hostMove s := by
  simp [step, agentStep, hphase, hbusy]

/-- Settles O9: an idle host leaves the state to `elapse`, which writes NOW and uses the draw. -/
theorem idleChangesOnlyNow : Obligations.IdleChangesOnlyNow := by
  intro s hphase hbusy hhost
  rw [step_eq_hostMove hphase hbusy]
  rcases hhost with hnil | ⟨rest, hidle⟩
  · simp [hostMove, hnil, hostIdle, stepOf, elapse]
  · simp only [hostMove, hidle]
    rfl

/-! ### Distinct ids (R54) -/

/-- A state's binding record is whole or absent, in every phase that is held (R20, R21, R22). -/
theorem Steady.unbound_or_bound {s : State} (h : Steady s) : Unbound s ∨ Bound s := by
  obtain ⟨hunbound, hfailed, hbound⟩ := h.binding
  cases hphase : s.phase with
  | unconfigured => exact .inl (hunbound (.inl hphase))
  | released => exact .inl (hunbound (.inr hphase))
  | failed => exact hfailed hphase
  | pinsBound => exact .inr (hbound (.inl hphase))
  | pinsAcquired | controllerBroughtUp | operational => exact .inr (hbound (.inr (by rw [hphase]; rfl)))
  | reserved => exact absurd hphase h.phase

/-- A role is active only under a binding record (R21). -/
theorem Steady.bound_of_active {s : State} (h : Steady s) {r : Role} (hr : s.active.get r = true) : Bound s := by
  rcases h.unbound_or_bound with ⟨-, -, hactive, -⟩ | hbound
  · rw [hactive, every_get] at hr
    cases hr
  · exact hbound

/-- Settles O57: the invariant holds the distinct ids in the binding record, and the stamps with TRACE. -/
theorem reachableIdsDistinctAndStampsRise : Obligations.ReachableIdsDistinctAndStampsRise := by
  intro s hs
  have hsteady := hs.invariant.steady
  refine ⟨fun r q hne hr hq => ?_, hsteady.stamps, fun x hx => (hsteady.words x hx).2⟩
  exact (hsteady.bound_of_active hr).distinct r q hne hr hq

end Sys2Proof.Machine

/-! # Time, TRACE and the latches under every step

`Records` is what the clock and the observers keep of a run: NOW, the draws, TRACE and LATCH (R10, R30, R31, R32). The end of
a primitive, the end of a command and the fault procedure leave it; `Recorded` says what a primitive step adds to it. -/

namespace Sys2Proof.Machine

/-! ### What the clock and the observers keep -/

/-- NOW, the draws, TRACE and LATCH (R10, R30, R31, R32). -/
structure Records where
  now    : Nat
  script : List Draw
  drawIx : Nat
  trace  : List (Word16 × Nat)
  latch1 : List LatchRec
  latch2 : List LatchRec

/-- The records of a state. -/
def recordsOf (s : State) : Records := ⟨s.now, s.script, s.drawIx, s.trace, s.latch1, s.latch2⟩

@[simp] theorem recordsOf_setLvl (r : Role) (l : Option Bool) (s : State) : recordsOf (setLvl r l s) = recordsOf s := rfl
@[simp] theorem recordsOf_nextStage (s : State) : recordsOf (nextStage s) = recordsOf s := rfl
@[simp] theorem recordsOf_raise (c : FaultCode) (role : Option Role) (id : Option Nat) (s : State) :
    recordsOf (raise c role id s) = recordsOf s := rfl

@[simp] theorem recordsOf_finish (f : Finish) (s : State) : recordsOf (finish f s) = recordsOf s := by
  cases f <;> rfl

@[simp] theorem recordsOf_continueWith (plan : List Prim) (f : Finish) (s : State) :
    recordsOf (continueWith plan f s) = recordsOf s := by
  cases plan with
  | nil => exact recordsOf_finish f s
  | cons p ps => rfl

@[simp] theorem recordsOf_advance (s : State) : recordsOf (advance s) = recordsOf s :=
  recordsOf_continueWith s.plan.tail s.fin s

@[simp] theorem recordsOf_acquireFailed (r : Role) (s : State) : recordsOf (acquireFailed r s) = recordsOf s :=
  recordsOf_continueWith (unwindSeq s.params s.active r) (.unavailable r) s

theorem latchOf_of_records {s t : State} (h : recordsOf t = recordsOf s) (e : Role) : latchOf e t = latchOf e s := by
  unfold latchOf
  split
  · exact congrArg Records.latch1 h
  · exact congrArg Records.latch2 h

/-- Write(r, b) of an acquired pin records its word and what the controller sees of the edge (R58, R82). -/
theorem recordsOf_writeStep {r : Role} {s : State} (b : Bool) (d : Draw) (hacq : (s.pin.get r).acq = true) :
    recordsOf (writeStep r b d s) =
      recordsOf (observe r (writeEdge (s.pin.get r).lvl b d.writeOk) d (emit (encode (.uwr r b)) s)) := by
  cases hok : d.writeOk with
  | true => simp [writeStep_ok b hacq hok]
  | false => simp [writeStep_fails b hacq hok]

/-- The first step of Release(r) of an acquired pin records its word and what the controller sees of the edge (R58, R83). -/
theorem recordsOf_releaseStep {r : Role} {s : State} (d : Draw) (hacq : (s.pin.get r).acq = true) (hstage : s.stage = 0) :
    recordsOf (releaseStep r d s) =
      recordsOf (observe r (releaseEdge (s.pin.get r).lvl) d (emit (encode (.urel r)) s)) := by
  simp [releaseStep, hstage, hacq]

/-! ### The controllers (R58) -/

/-- A role with a controller on its line (R58). -/
def IsEnable (e : Role) : Prop := e = .en ∨ e = .en2

/-- The enables of the two controllers, in either order. -/
def EnablePair (e o : Role) : Prop := (e = .en ∧ o = .en2) ∨ (e = .en2 ∧ o = .en)

theorem EnablePair.left {e o : Role} (h : EnablePair e o) : IsEnable e := h.imp And.left And.left

theorem EnablePair.right {e o : Role} (h : EnablePair e o) : IsEnable o := h.symm.imp And.right And.right

theorem EnablePair.ne {e o : Role} (h : EnablePair e o) : e ≠ o := by
  rcases h with ⟨rfl, rfl⟩ | ⟨rfl, rfl⟩ <;> nofun

theorem latchOf_appendLatch {e : Role} (h : IsEnable e) (rec : LatchRec) (s : State) :
    latchOf e (appendLatch e rec s) = latchOf e s ++ [rec] := by
  rcases h with rfl | rfl <;> rfl

/-- A controller sees the line of its own enable only. -/
theorem latchOf_observe_ne {r e : Role} (he : IsEnable e) (hne : r ≠ e) (edge : Edge) (d : Draw) (s : State) :
    latchOf e (observe r edge d s) = latchOf e s := by
  rcases he with rfl | rfl
  · exact observe_latch1_ne hne edge d s
  · exact observe_latch2_ne hne edge d s

theorem latchOf_observe_falling {e : Role} (he : IsEnable e) (d : Draw) (s : State) :
    latchOf e (observe e .falling d s) = latchOf e s ++ [sampledRecord d s] :=
  latchOf_appendLatch he (sampledRecord d s) s

theorem latchOf_observe_undefined {e : Role} (he : IsEnable e) (d : Draw) (s : State) :
    latchOf e (observe e .undefined d s) = latchOf e s ++ (if d.latches then [drawnRecord d s] else []) := by
  cases hlatches : d.latches with
  | true => simp [observe, hlatches, latchOf_appendLatch he]
  | false => simp [observe, hlatches]

theorem toNat_nibbleOfLines (b7 b6 b5 b4 : Bool) :
    (nibbleOfLines b7 b6 b5 b4).toNat = 8 * b7.toNat + 4 * b6.toNat + 2 * b5.toNat + b4.toNat := by
  revert b7 b6 b5 b4
  decide

theorem sampledRecord_t (d : Draw) (s : State) : (sampledRecord d s).t = s.now := by
  unfold sampledRecord
  split <;> rfl

/-- With RS and the data lines defined, the record holds their levels (R58). -/
theorem sampledRecord_of_defined (d : Draw) {s : State} {l : Bool} {n : Nat} (hrs : s.pin.rs.lvl = some l)
    (hdata : dataLines s = some n) : (sampledRecord d s).rs = l ∧ (sampledRecord d s).nib.toNat = n := by
  unfold dataLines at hdata
  split at hdata
  · next b7 b6 b5 b4 h7 h6 h5 h4 =>
    simp only [sampledRecord, hrs, h7, h6, h5, h4, toNat_nibbleOfLines]
    exact ⟨trivial, Option.some.inj hdata⟩
  · cases hdata

/-- With one of the lines undefined, the record's contents are drawn (R58). -/
theorem sampledRecord_of_undefined (d : Draw) {s : State} (h : s.pin.rs.lvl = none ∨ dataLines s = none) :
    sampledRecord d s = drawnRecord d s := by
  unfold sampledRecord
  split
  · next hrs h7 h6 h5 h4 => simp [dataLines, hrs, h7, h6, h5, h4] at h
  · rfl

/-! ### Edges (R52, R58) -/

theorem writeEdge_falling {old : Option Bool} {b ok : Bool} (h : ok = true ∧ b = false ∧ old = some true) :
    writeEdge old b ok = .falling := by
  obtain ⟨rfl, rfl, rfl⟩ := h
  rfl

theorem writeEdge_undefined {old : Option Bool} {b ok : Bool}
    (h : (ok = false ∧ old ≠ some false) ∨ (ok = true ∧ b = false ∧ old = none)) :
    writeEdge old b ok = .undefined := by
  revert old b ok
  decide

theorem writeEdge_none {old : Option Bool} {b ok : Bool}
    (h : (ok = true ∧ (b = true ∨ old = some false)) ∨ (ok = false ∧ old = some false)) :
    writeEdge old b ok = .none := by
  revert old b ok
  decide

theorem releaseEdge_undefined {old : Option Bool} (h : old ≠ some false) : releaseEdge old = .undefined := by
  revert old
  decide

/-! ### What a primitive step records -/

/-- The least duration of a primitive step: a delay's bound (R56, R84). -/
def primBound (params : Params) : Prim → Nat
  | .dly c => delayBound params c
  | .acq _ => 0
  | .wr _ _ => 0
  | .rel _ => 0

/-- The primitive p writes or releases the role r. -/
def Drives (p : Prim) (r : Role) : Prop := (∃ b, p = .wr r b) ∨ p = .rel r

theorem Drives.primBound {p : Prim} {r : Role} (h : Drives p r) (params : Params) : primBound params p = 0 := by
  rcases h with ⟨b, rfl⟩ | rfl <;> rfl

/-- What the step of p from s records in t before the drawn duration passes: at least its bound, and a latch of a
controller only as p drives its enable and emits its word. -/
structure Recorded (p : Prim) (s t : State) : Prop where
  now     : t.now = s.now + primBound s.params p
  draws   : t.script = s.script ∧ t.drawIx = s.drawIx
  latches : ∀ e, IsEnable e → latchOf e t ≠ latchOf e s →
    Drives p e ∧ t.trace = s.trace ++ [(encode p.toInstr, s.now)]

theorem Recorded.of_records {p : Prim} {s t u : State} (h : Recorded p s u) (ht : recordsOf t = recordsOf u) :
    Recorded p s t where
  now := (congrArg Records.now ht).trans h.now
  draws := ⟨(congrArg Records.script ht).trans h.draws.1, (congrArg Records.drawIx ht).trans h.draws.2⟩
  latches := by
    intro e he hchange
    rw [latchOf_of_records ht] at hchange
    obtain ⟨hdrives, htrace⟩ := h.latches e he hchange
    exact ⟨hdrives, (congrArg Records.trace ht).trans htrace⟩

/-- A step that makes no record. -/
theorem Recorded.refl {p : Prim} {s : State} (hp : primBound s.params p = 0) : Recorded p s s :=
  ⟨by rw [hp]; rfl, ⟨rfl, rfl⟩, fun _ _ hchange => absurd rfl hchange⟩

theorem Recorded.emit {p : Prim} {s : State} (hp : primBound s.params p = 0) :
    Recorded p s (emit (encode p.toInstr) s) :=
  ⟨by rw [hp]; rfl, ⟨rfl, rfl⟩, fun _ _ hchange => absurd rfl hchange⟩

theorem Recorded.observe {p : Prim} {r : Role} (s : State) (hp : Drives p r) (edge : Edge) (d : Draw) :
    Recorded p s (observe r edge d (Machine.emit (encode p.toInstr) s)) where
  now := by rw [hp.primBound, observe_now]; rfl
  draws := ⟨observe_script r edge d _, observe_drawIx r edge d _⟩
  latches := by
    intro e he hchange
    obtain rfl : r = e := by
      by_contra hne
      exact hchange (latchOf_observe_ne he hne edge d _)
    exact ⟨hp, observe_trace r edge d _⟩

theorem Recorded.delay (c : DelayClass) (s : State) :
    Recorded (.dly c) s (sleepBound (delayBound s.params c) (Machine.emit (encode (.udly c.code)) s)) :=
  ⟨rfl, ⟨rfl, rfl⟩, fun _ _ hchange => absurd rfl hchange⟩

/-- What each primitive step records (R81 to R84). -/
theorem primStep_recorded (p : Prim) (d : Draw) (s : State) : Recorded p s (primStep p d s) := by
  cases p with
  | acq r =>
    show Recorded _ s (acquireStep r d s)
    have hsilent : Recorded (.acq r) s s := .refl rfl
    have hemit : Recorded (.acq r) s (emit (encode (.uacq r)) s) := .emit (p := .acq r) rfl
    rcases acquireStep_cases r d s with
      ⟨-, -, h⟩ | ⟨-, -, h⟩ | ⟨-, -, h⟩ | ⟨-, -, h⟩ | ⟨-, h⟩ <;> rw [h]
    · exact hemit.of_records rfl
    · exact hemit.of_records (recordsOf_acquireFailed r _)
    · exact hsilent.of_records rfl
    · exact hsilent.of_records (recordsOf_advance _)
    · exact hsilent.of_records (recordsOf_acquireFailed r s)
  | wr r b =>
    show Recorded _ s (writeStep r b d s)
    cases hacq : (s.pin.get r).acq with
    | true => exact (Recorded.observe s (.inl ⟨b, rfl⟩) _ d).of_records (recordsOf_writeStep b d hacq)
    | false =>
      rw [writeStep_unacquired b hacq]
      exact (Recorded.refl rfl).of_records rfl
  | rel r =>
    show Recorded _ s (releaseStep r d s)
    rcases releaseStep_cases r d s with ⟨-, -, h⟩ | ⟨-, -, h⟩ | ⟨-, h⟩ | ⟨-, h⟩ <;> rw [h]
    · exact (Recorded.observe s (.inr rfl) _ d).of_records rfl
    · exact (Recorded.emit (p := .rel r) rfl).of_records (recordsOf_advance _)
    · exact (Recorded.refl rfl).of_records rfl
    · exact (Recorded.refl rfl).of_records (recordsOf_advance _)
  | dly c => exact (Recorded.delay c s).of_records (recordsOf_advance _)

/-! ### What a step records -/

/-- No command starts with a delay (R91, R95, R103, R105, R110). -/
theorem primBound_of_programOf {i : Instr} {s : State} {p : Prim} {ps : List Prim} {f : Finish}
    (h : programOf i s = some (p :: ps, f)) (params : Params) : primBound params p = 0 := by
  cases i with
  | bind | start | uacq _ | uwr _ _ | urel _ | udly _ => cases h
  | acqall =>
    obtain ⟨r, -, -, rfl, -⟩ := List.map_eq_cons_iff.1 (congrArg Prod.fst (Option.some.inj h))
    rfl
  | bringup =>
    obtain ⟨es, -, hprogram⟩ := Option.map_eq_some_iff.1 h
    cases hprogram
    rfl
  | send tgt mode value =>
    obtain ⟨es, -, hprogram⟩ := Option.map_eq_some_iff.1 h
    cases hprogram
    rfl
  | bl state =>
    have hplan := congrArg Prod.fst (Option.some.inj h)
    dsimp only at hplan
    split at hplan
    · cases hplan
      rfl
    · cases hplan
  | close =>
    have hplan := congrArg Prod.fst (Option.some.inj h)
    split at hplan
    · cases hplan
    · obtain ⟨r, -, -, rfl, -⟩ := List.map_eq_cons_iff.1 hplan
      rfl

/-- Dispatch makes no record, or that of a first primitive, which is no delay. -/
theorem Dispatched.recorded {i : Instr} {d : Draw} {s t : State} (h : Dispatched i d s t) :
    recordsOf t = recordsOf s ∨ ∃ p, primBound s.params p = 0 ∧ Recorded p s t := by
  cases h with
  | runs p ps f hlegal hprogram =>
    obtain ⟨hnow, hdraws, hlatches⟩ := primStep_recorded p d (starting (p :: ps) f s)
    exact .inr ⟨p, primBound_of_programOf hprogram s.params, hnow, hdraws, hlatches⟩
  | finishes f hlegal hprogram => exact .inl (recordsOf_finish f s)
  | binds hi hphase halias => exact .inl rfl
  | starts hi hphase => exact .inl rfl
  | faults c role id hclose hstart => exact .inl rfl

/-- What a step from s records in t before its drawn duration passes. -/
inductive StepRecorded (s t : State) : Prop where
  | primitive (p : Prim) (ps : List Prim) : s.busy = true → s.plan = p :: ps → Recorded p s t → StepRecorded s t
  | starts (p : Prim) : s.busy = false → primBound s.params p = 0 → Recorded p s t → StepRecorded s t
  | nothing : s.busy = false → recordsOf t = recordsOf s → StepRecorded s t

theorem Effect.recorded {s t : State} (h : Effect s t) : StepRecorded s t := by
  cases h with
  | primitive p ps hbusy hplan => exact .primitive p ps hbusy hplan (primStep_recorded p s.draw s)
  | idles hbusy hhost => exact .nothing hbusy rfl
  | accepts w rest i hbusy hhost hdecode hword hdispatched =>
    rcases hdispatched.recorded with hsame | ⟨p, hp, hnow, hdraws, hlatches⟩
    · exact .nothing hbusy hsame
    · exact .starts p hbusy hp ⟨hnow, hdraws, hlatches⟩
  | rejects w rest e hbusy hhost hdecode => exact .nothing hbusy rfl

/-- The drawn duration passes after the primitive's bound (R56). -/
theorem Recorded.timePassed {p : Prim} {s u : State} (h : Recorded p s u) :
    TimePassed (primBound s.params p) s (elapse s.draw u) := by
  obtain ⟨hscript, hdrawIx⟩ := h.draws
  exact ⟨congrArg (· + s.draw.dur) h.now, congrArg List.tail hscript, congrArg (· + 1) hdrawIx⟩

theorem timePassed_of_records {s u : State} (h : recordsOf u = recordsOf s) : TimePassed 0 s (elapse s.draw u) :=
  ⟨congrArg (fun r : Records => r.now + s.draw.dur) h, congrArg (fun r : Records => r.script.tail) h,
    congrArg (fun r : Records => r.drawIx + 1) h⟩

/-- Settles O48: a step appends its word stamped NOW, and its least duration is the bound of the primitive it runs. -/
theorem timeAdvancesByTheDraw : Obligations.TimeAdvancesByTheDraw := by
  intro s t h
  obtain ⟨-, htraceCases⟩ := traceOnlyGrows
  refine ⟨(htraceCases s t h).imp_right fun ⟨i, _, _, htrace⟩ => ⟨encode i, htrace⟩, ?_⟩
  obtain ⟨-, u, heffect, rfl⟩ := step_effect h
  cases heffect.recorded with
  | primitive p ps hbusy hplan hrecorded =>
    have htime := hrecorded.timePassed
    rw [if_pos hbusy, hplan]
    cases p with
    | dly c => cases c <;> exact htime
    | acq _ | wr _ _ | rel _ => exact htime
  | starts p hbusy hp hrecorded =>
    have htime := hrecorded.timePassed
    rw [if_neg (by simp [hbusy])]
    rwa [hp] at htime
  | nothing hbusy hsame =>
    rw [if_neg (by simp [hbusy])]
    exact timePassed_of_records hsame

/-! ### The latches of a step (R58) -/

/-- A step that writes the latches of an enable's controller emits a word of that enable. -/
theorem step_latchOf {s t : State} {e : Role} (h : step s = .next t) (he : IsEnable e)
    (hchange : latchOf e t ≠ latchOf e s) :
    ∃ p, Drives p e ∧ t.trace = s.trace ++ [(encode p.toInstr, s.now)] := by
  obtain ⟨-, u, heffect, rfl⟩ := step_effect h
  change latchOf e u ≠ latchOf e s at hchange
  cases heffect.recorded with
  | primitive p ps hbusy hplan hrecorded => exact ⟨p, hrecorded.latches e he hchange⟩
  | starts p hbusy hp hrecorded => exact ⟨p, hrecorded.latches e he hchange⟩
  | nothing hbusy hsame => exact absurd (latchOf_of_records hsame e) hchange

/-- What an enable's controller appends at a step that records the edge seen on the enable's line, and that the other
controller appends nothing. -/
theorem latchOf_of_observed {e o : Role} (hpair : EnablePair e o) {edge : Edge} {d : Draw} {w : Word16} {s t : State}
    (h : recordsOf t = recordsOf (observe e edge d (emit w s))) :
    latchOf o t = latchOf o s ∧
    (edge = .falling → latchOf e t = latchOf e s ++ [sampledRecord d s]) ∧
    (edge = .undefined → latchOf e t = latchOf e s ++ (if d.latches then [drawnRecord d s] else [])) ∧
    (edge = .none → latchOf e t = latchOf e s) := by
  rw [latchOf_of_records h, latchOf_of_records h]
  refine ⟨latchOf_observe_ne hpair.right hpair.ne edge d _, ?_, ?_, ?_⟩ <;> rintro rfl
  · exact latchOf_observe_falling hpair.left d _
  · exact latchOf_observe_undefined hpair.left d _
  · rfl

/-- Settles O19: a write and the first step of a release record the edge that the controller sees, and every other step
leaves its list as it is. -/
theorem controllerLatchRule : Obligations.ControllerLatchRule := by
  refine ⟨fun e o b s hpair hacq => ?_, fun e o s hpair hacq hstage => ?_,
    fun s t h => ⟨fun hchange => ?_, fun hchange => ?_⟩⟩
  · obtain ⟨hother, hfalling, hundefined, hnone⟩ := latchOf_of_observed hpair (recordsOf_writeStep b s.draw hacq)
    refine ⟨_, exec_prim (.wr e b) s, hother, fun hcase => ?_, fun hcase => ?_, fun hcase => ?_⟩
    · exact ⟨_, hfalling (writeEdge_falling hcase), sampledRecord_t s.draw s,
        fun l n hrs hdata => sampledRecord_of_defined s.draw hrs hdata,
        fun hlines => by rw [sampledRecord_of_undefined s.draw hlines]; exact ⟨rfl, rfl⟩⟩
    · exact hundefined (writeEdge_undefined hcase)
    · exact hnone (writeEdge_none hcase)
  · obtain ⟨hother, -, hundefined, hnone⟩ := latchOf_of_observed hpair (recordsOf_releaseStep s.draw hacq hstage)
    refine ⟨_, exec_prim (.rel e) s, hother, fun hlvl => ?_, fun hlvl => ?_⟩
    · exact hundefined (releaseEdge_undefined hlvl)
    · exact hnone (by rw [hlvl]; rfl)
  · obtain ⟨p, ⟨b, rfl⟩ | rfl, htrace⟩ := step_latchOf (e := .en) h (.inl rfl) hchange
    · exact ⟨_, htrace, by cases b <;> decide⟩
    · exact ⟨_, htrace, by decide⟩
  · obtain ⟨p, ⟨b, rfl⟩ | rfl, htrace⟩ := step_latchOf (e := .en2) h (.inr rfl) hchange
    · exact ⟨_, htrace, by cases b <;> decide⟩
    · exact ⟨_, htrace, by decide⟩

end Sys2Proof.Machine

/-! # Words: the encoder inverts the trace decoder, and a host word by arithmetic

The second half of R80, and from both halves the meaning of the port decoder (R76). -/

namespace Sys2Proof.Machine

/-! ### From a trace word to its instruction and back (R80) -/

theorem code_roleOfCode (c : BitVec 3) : (Role.ofCode c).code = c := by
  revert c
  decide

/-- The fields of a trace word that names a role (R64, R65). -/
theorem word_eq_role_fields (w : Word16) : fieldOp w ++ w.extractLsb' 11 1 ++ fieldRole w ++ fieldByte w = w := by
  ext j hj
  simp only [fieldOp, fieldRole, fieldByte, BitVec.getElem_append, BitVec.getElem_extractLsb']
  grind

/-- The fields of a UWR word (R64, R65). -/
theorem word_eq_write_fields (w : Word16) :
    fieldOp w ++ w.extractLsb' 11 1 ++ fieldRole w ++ w.extractLsb' 1 7 ++ BitVec.ofBool (fieldBit0 w) = w := by
  ext j hj
  simp only [fieldOp, fieldRole, fieldBit0, BitVec.getElem_append, BitVec.getElem_extractLsb']
  grind

/-- The fields of a UDLY word (R64, R65). -/
theorem word_eq_delay_fields (w : Word16) : fieldOp w ++ w.extractLsb' 8 4 ++ fieldByte w = w := by
  ext j hj
  simp only [fieldOp, fieldByte, BitVec.getElem_append, BitVec.getElem_extractLsb']
  grind

theorem extract_eq_zero_of_bit {w : Word16} (h : w.getLsbD 11 = false) : w.extractLsb' 11 1 = 0 := by
  ext j hj
  obtain rfl : j = 0 := by omega
  simpa using h

/-- A legal trace word is the word of the instruction it decodes to (R80). -/
theorem encode_of_decodeTrace {w : Word16} {i : Instr} (h : decodeTrace w = .ok i) : encode i = w := by
  simp only [decodeTrace] at h
  split at h
  case isTrue hop =>
    split at h
    · next hzero =>
      obtain ⟨hbit, hbyte⟩ := hzero
      cases h
      simpa only [hop, hbyte, extract_eq_zero_of_bit hbit, encode, code_roleOfCode] using word_eq_role_fields w
    · cases h
  split at h
  case isTrue hop =>
    split at h
    · next hzero =>
      obtain ⟨hbit, hconst⟩ := hzero
      cases h
      simpa only [hop, hconst, extract_eq_zero_of_bit hbit, encode, code_roleOfCode] using word_eq_write_fields w
    · cases h
  split at h
  case isTrue hop =>
    split at h
    · next hzero =>
      obtain ⟨hbit, hbyte⟩ := hzero
      cases h
      simpa only [hop, hbyte, extract_eq_zero_of_bit hbit, encode, code_roleOfCode] using word_eq_role_fields w
    · cases h
  split at h
  case isTrue hop =>
    split at h
    · next hconst =>
      split at h
      · cases h
        simpa only [hop, hconst, encode] using word_eq_delay_fields w
      · cases h
    · cases h
  cases h

/-- A well-formed instruction that is no host command is the instruction of a primitive (R64, R77). -/
theorem exists_prim_of_wf {i : Instr} (hcommand : isCommand i = false) (hwf : i.wf = true) : ∃ p : Prim, p.toInstr = i := by
  cases i with
  | uacq r => exact ⟨.acq r, rfl⟩
  | uwr r b => exact ⟨.wr r b, rfl⟩
  | urel r => exact ⟨.rel r, rfl⟩
  | udly cls =>
    have hassigned : ∀ c : Byte, c.toNat < 4 → c = 0 ∨ c = 1 ∨ c = 2 ∨ c = 3 := by decide
    rcases hassigned cls (by simpa [Instr.wf] using hwf) with rfl | rfl | rfl | rfl
    · exact ⟨.dly .t, rfl⟩
    · exact ⟨.dly .pb1, rfl⟩
    · exact ⟨.dly .pb2, rfl⟩
    · exact ⟨.dly .pb3, rfl⟩
  | bind | acqall | bringup | start | send _ _ _ | bl _ | close => cases hcommand

/-- Every well-formed trace instruction is read back from its word (R80). -/
theorem decodeTrace_encode {i : Instr} (hcommand : isCommand i = false) (hwf : i.wf = true) :
    decodeTrace (encode i) = .ok i := by
  obtain ⟨p, rfl⟩ := exists_prim_of_wf hcommand hwf
  exact decodeTrace_toInstr p

/-- Settles O1: a decoded instruction's word is rebuilt from its fields, and every word of an instruction is read back. -/
theorem encodersInvertDecoders : Obligations.EncodersInvertDecoders :=
  ⟨fun _ _ => encode_of_decodePort, fun _ => decodePort_encode, fun _ _ => encode_of_decodeTrace,
    fun _ => decodeTrace_encode⟩

/-! ### The host words as numbers (R63, R76) -/

/-- The port decoder reads the command i from one word. -/
theorem decodePort_eq_ok_iff {w : Word16} {i : Instr} (hcommand : isCommand i = true) :
    decodePort w = .ok i ↔ w.toNat = (encode i).toNat := by
  refine ⟨fun h => by rw [encode_of_decodePort h], fun h => ?_⟩
  rw [BitVec.eq_of_toNat_eq h]
  exact decodePort_encode hcommand

theorem toNat_append_eq_add {m n : Nat} (x : BitVec m) (y : BitVec n) : (x ++ y).toNat = x.toNat * 2 ^ n + y.toNat := by
  rw [BitVec.toNat_append, ← Nat.shiftLeft_add_eq_or_of_lt y.isLt, Nat.shiftLeft_eq]

theorem toNat_encode_send (tgt : Target) (mode : Mode) (v : Byte) :
    (encode (.send tgt mode v)).toNat = 0x5000 + 1024 * tgt.code.toNat + 256 * mode.code.toNat + v.toNat := by
  simp only [encode, toNat_append_eq_add, BitVec.ofNat_eq_ofNat, BitVec.toNat_ofNat]
  omega

theorem toNat_encode_bl (b : Bool) : (encode (.bl b)).toNat = 0x6000 + b.toNat := by
  cases b <;> rfl

/-- Settles O2: each command has one word, whose number is the sum of its fields. -/
theorem portDecoderMeaning : Obligations.PortDecoderMeaning := by
  refine fun w => ⟨decodePort_eq_ok_iff rfl, decodePort_eq_ok_iff rfl, decodePort_eq_ok_iff rfl, decodePort_eq_ok_iff rfl,
    decodePort_eq_ok_iff rfl, fun tgt mode v => ?_, fun b => ?_, fun i => decodePort_command⟩
  · rw [← toNat_encode_send]
    exact decodePort_eq_ok_iff rfl
  · rw [← toNat_encode_bl]
    exact decodePort_eq_ok_iff rfl

end Sys2Proof.Machine

/-! # Words that are refused (R69)

A field of a word is a digit group of its number; each decoder refuses the words that R69's arithmetic names. -/

namespace Sys2Proof.Machine

/-! ### Fields as numbers -/

theorem fieldOp_toNat (w : Word16) : (fieldOp w).toNat = w.toNat / 4096 := by
  have hw := w.isLt
  simp only [fieldOp, BitVec.extractLsb'_toNat, Nat.shiftRight_eq_div_pow]
  omega

theorem fieldTgt_toNat (w : Word16) : (fieldTgt w).toNat = w.toNat / 1024 % 4 := by
  simp [fieldTgt, BitVec.extractLsb'_toNat, Nat.shiftRight_eq_div_pow]

theorem fieldByte_toNat (w : Word16) : (fieldByte w).toNat = w.toNat % 256 := by
  simp [fieldByte, BitVec.extractLsb'_toNat]

/-- A bit of a word is a binary digit of its number. -/
theorem getLsbD_eq_true_iff (w : Word16) (k : Nat) : w.getLsbD k = true ↔ w.toNat / 2 ^ k % 2 = 1 := by
  rw [BitVec.getLsbD, Nat.testBit_eq_decide_div_mod_eq, decide_eq_true_iff]

/-- A field is zero when its part of the number is. -/
theorem extract_eq_zero_iff (w : Word16) (start len : Nat) :
    w.extractLsb' start len = 0 ↔ w.toNat / 2 ^ start % 2 ^ len = 0 := by
  rw [BitVec.toNat_eq, BitVec.extractLsb'_toNat, Nat.shiftRight_eq_div_pow]
  simp

/-- The opcode of a word, named by its number. -/
theorem fieldOp_eq_iff {w : Word16} {c : BitVec 4} : fieldOp w = c ↔ w.toNat / 4096 = c.toNat := by
  rw [BitVec.toNat_eq, fieldOp_toNat]

/-- A decoder that only checks its constant fields refuses where the check fails. -/
theorem isError_ite {α ε : Type} (c : Prop) [Decidable c] (a : α) (r : ε) :
    (∃ e, (if c then Except.ok a else .error r) = .error e) ↔ ¬c := by
  by_cases h : c <;> simp [h]

/-! ### The command port (R69 (a) to (e)) -/

theorem plainCommand_isError_iff (w : Word16) (i : Instr) :
    (∃ e, plainCommand w i = .error e) ↔ w.toNat % 4096 ≠ 0 := by
  rw [plainCommand, isError_ite, extract_eq_zero_iff]
  simp

theorem targetOfCode_eq_none_iff (c : BitVec 2) : Target.ofCode c = none ↔ c.toNat = 3 := by
  revert c
  decide

theorem decodeSend_isError_iff (w : Word16) :
    (∃ e, decodeSend w = .error e) ↔ w.toNat / 1024 % 4 = 3 ∨ w.toNat / 512 % 2 = 1 := by
  have htarget := targetOfCode_eq_none_iff (fieldTgt w)
  have hbit := getLsbD_eq_true_iff w 9
  rw [fieldTgt_toNat] at htarget
  unfold decodeSend
  split
  · next hnone => simp [htarget.1 hnone]
  · next tgt hsome =>
    have hlegal : w.toNat / 1024 % 4 ≠ 3 := fun h => by simp [htarget.2 h] at hsome
    split
    · next hset => simpa [hlegal] using hbit.1 hset
    · next hclear => simpa [hlegal] using mt hbit.2 hclear

theorem decodeBl_isError_iff (w : Word16) : (∃ e, decodeBl w = .error e) ↔ w.toNat % 4096 / 2 ≠ 0 := by
  rw [decodeBl, isError_ite, extract_eq_zero_iff]
  omega

/-- A plain command's word is refused where R69 (c) says so. -/
theorem plainCommand_isIllegal_iff {w : Word16} {c : BitVec 4} (hop : fieldOp w = c)
    (hc : c = 0x1 ∨ c = 0x2 ∨ c = 0x3 ∨ c = 0x4 ∨ c = 0x7) (i : Instr) :
    (∃ e, plainCommand w i = .error e) ↔ isIllegalWord w.toNat = true := by
  rw [plainCommand_isError_iff]
  rcases hc with rfl | rfl | rfl | rfl | rfl <;> simp [isIllegalWord, fieldOp_eq_iff.1 hop]

/-- The port decoder refuses the words that R69 (a) to (e) call illegal, and no others. -/
theorem decodePort_isError_iff (w : Word16) : (∃ e, decodePort w = .error e) ↔ isIllegalWord w.toNat = true := by
  simp only [decodePort]
  split
  case isTrue hop => exact plainCommand_isIllegal_iff hop (by decide) _
  split
  case isTrue hop => exact plainCommand_isIllegal_iff hop (by decide) _
  split
  case isTrue hop => exact plainCommand_isIllegal_iff hop (by decide) _
  split
  case isTrue hop => exact plainCommand_isIllegal_iff hop (by decide) _
  split
  case isTrue hop =>
    rw [decodeSend_isError_iff]
    simp [isIllegalWord, fieldOp_eq_iff.1 hop]
  split
  case isTrue hop =>
    rw [decodeBl_isError_iff]
    simp [isIllegalWord, fieldOp_eq_iff.1 hop]
  split
  case isTrue hop => exact plainCommand_isIllegal_iff hop (by decide) _
  split
  case isTrue hop =>
    rcases hop with hop | hop | hop | hop <;> simp [isIllegalWord, fieldOp_eq_iff.1 hop]
  next h1 h2 h3 h4 h5 h6 h7 htrace =>
    simp only [fieldOp_eq_iff, BitVec.ofNat_eq_ofNat, BitVec.toNat_ofNat] at h1 h2 h3 h4 h5 h6 h7 htrace
    have hreserved : w.toNat / 4096 = 0 ∨ 12 ≤ w.toNat / 4096 := by omega
    exact iff_of_true ⟨_, rfl⟩ (by simp only [isIllegalWord, hreserved, decide_true, Bool.true_or])

/-! ### Trace words (R69, R77) -/

theorem delayClassOfCode_eq_none_iff (c : Byte) : DelayClass.ofCode c = none ↔ 4 ≤ c.toNat := by
  revert c
  decide

/-- Settles O18: a class from 4 to 255 names no delay. -/
theorem reservedDelayClassRefused : Obligations.ReservedDelayClassRefused := by
  intro c s hreserved
  simp [exec, execUdly, (delayClassOfCode_eq_none_iff c).2 hreserved]

/-- The numbers of the reserved UACQ and UREL words. -/
theorem isReservedTraceWord_role {n : Nat} (hop : n / 4096 = 8 ∨ n / 4096 = 10) :
    isReservedTraceWord n = true ↔ ¬(n / 2048 % 2 = 0 ∧ n % 256 = 0) := by
  rcases hop with hop | hop <;> simp [isReservedTraceWord, hop] <;> omega

/-- The numbers of the reserved UWR words. -/
theorem isReservedTraceWord_write {n : Nat} (hop : n / 4096 = 9) :
    isReservedTraceWord n = true ↔ ¬(n / 2048 % 2 = 0 ∧ n % 256 / 2 = 0) := by
  simp [isReservedTraceWord, hop]
  omega

/-- The numbers of the reserved UDLY words. -/
theorem isReservedTraceWord_delay {n : Nat} (hop : n / 4096 = 11) :
    isReservedTraceWord n = true ↔ ¬(n % 4096 / 256 = 0 ∧ n % 256 < 4) := by
  simp [isReservedTraceWord, hop]
  omega

/-- With a trace opcode, the trace decoder refuses the words that R69 and R77 reserve, and no others. -/
theorem decodeTrace_isError_iff {w : Word16} (hlow : 8 ≤ w.toNat / 4096) (hhigh : w.toNat / 4096 ≤ 11) :
    (∃ e, decodeTrace w = .error e) ↔ isReservedTraceWord w.toNat = true := by
  have hbit : w.getLsbD 11 = false ↔ w.toNat / 2048 % 2 = 0 := by
    rw [← Bool.not_eq_true, getLsbD_eq_true_iff]
    omega
  have hbyte : fieldByte w = 0 ↔ w.toNat % 256 = 0 := by
    rw [BitVec.toNat_eq, fieldByte_toNat]
    rfl
  have hwrite : w.extractLsb' 1 7 = 0 ↔ w.toNat % 256 / 2 = 0 := by
    rw [extract_eq_zero_iff]
    omega
  have hdelay : w.extractLsb' 8 4 = 0 ↔ w.toNat % 4096 / 256 = 0 := by
    rw [extract_eq_zero_iff]
    omega
  have hclass := delayClassOfCode_eq_none_iff (fieldByte w)
  rw [fieldByte_toNat] at hclass
  simp only [decodeTrace]
  split
  case isTrue hop =>
    rw [isError_ite, hbit, hbyte, isReservedTraceWord_role (.inl (fieldOp_eq_iff.1 hop))]
  split
  case isTrue hop =>
    rw [isError_ite, hbit, hwrite, isReservedTraceWord_write (fieldOp_eq_iff.1 hop)]
  split
  case isTrue hop =>
    rw [isError_ite, hbit, hbyte, isReservedTraceWord_role (.inr (fieldOp_eq_iff.1 hop))]
  split
  case isTrue hop =>
    rw [isReservedTraceWord_delay (fieldOp_eq_iff.1 hop), ← hdelay]
    split
    · next hconst =>
      split
      · next c hsome =>
        have hassigned : w.toNat % 256 < 4 := Nat.lt_of_not_le fun h => by simp [hclass.2 h] at hsome
        simp [hconst, hassigned]
      · next hnone => simpa [hconst] using hclass.1 hnone
    · next hconst => exact iff_of_true ⟨_, rfl⟩ fun h => hconst h.1
  next h8 h9 hA hB =>
    simp only [fieldOp_eq_iff, BitVec.ofNat_eq_ofNat, BitVec.toNat_ofNat] at h8 h9 hA hB
    omega

theorem traceOp_of_isReservedTraceWord {n : Nat} (h : isReservedTraceWord n = true) : 8 ≤ n / 4096 ∧ n / 4096 ≤ 11 := by
  simp only [isReservedTraceWord, Bool.or_eq_true, Bool.and_eq_true, decide_eq_true_eq] at h
  omega

/-- A word that is read as a trace word is refused as one on the command port (R69 (b)). -/
theorem decodePort_of_decodeTrace {w : Word16} {i : Instr} (h : decodeTrace w = .ok i) :
    decodePort w = .error .traceWord := by
  have hop : fieldOp w = 0x8 ∨ fieldOp w = 0x9 ∨ fieldOp w = 0xA ∨ fieldOp w = 0xB := by
    by_contra hop
    simp only [not_or] at hop
    obtain ⟨h8, h9, hA, hB⟩ := hop
    simp only [decodeTrace, h8, h9, hA, hB, ↓reduceIte, reduceCtorEq] at h
  rcases hop with hop | hop | hop | hop <;> simp [decodePort, hop]

/-! ### Illegal words at a step (R67, R69) -/

theorem exists_ok_of_not_error {w : Word16} {decode : Word16 → Except Reject Instr} (h : ¬∃ e, decode w = .error e) :
    ∃ i, decode w = .ok i := by
  cases hdecode : decode w with
  | ok i => exact ⟨i, rfl⟩
  | error e => exact absurd ⟨e, hdecode⟩ h

/-- An illegal word on the port of an idle block raises IllegalCommand, whatever the phase. -/
theorem step_of_illegalWord {s : State} {w : Word16} {rest : List HostMove} {e : Reject} (hphase : s.phase ≠ .reserved)
    (hidle : s.busy = false) (hhost : s.host = .issue w :: rest) (hdecode : decodePort w = .error e) :
    step s = .next (elapse s.draw (raise .illegalCommand none none (accepted w { s with host := rest }))) := by
  rw [step_eq_hostMove hphase hidle]
  simp only [hostMove, hhost, present, hdecode, execIllegal, hidle]
  rfl

/-- The word that a step emits is one that the trace decoder reads. -/
theorem decodeTrace_of_emitted {s t : State} {w : Word16} {x : Nat} (h : step s = .next t)
    (htrace : t.trace = s.trace ++ [(w, x)]) : ∃ i, decodeTrace w = .ok i := by
  obtain ⟨-, hgrows⟩ := traceOnlyGrows
  rcases hgrows s t h with hsame | ⟨i, hcommand, hwf, hemit⟩
  · simp [hsame] at htrace
  · rw [word_of_append (.inr hemit) htrace]
    exact ⟨i, decodeTrace_encode hcommand hwf⟩

/-- Settles O3: each decoder's refusals by opcode, the step of a refused word, and that an emitted word is decoded. -/
theorem illegalWordsRaiseIllegalCommand : Obligations.IllegalWordsRaiseIllegalCommand := by
  refine ⟨fun w => (decodePort_isError_iff w).symm, fun w hreserved => ?_, fun w hlegal hlow hhigh => ?_,
    fun s w rest hphase hidle hhost hillegal => ?_, fun s t w x hstep htrace => ?_⟩
  · obtain ⟨hlow, hhigh⟩ := traceOp_of_isReservedTraceWord hreserved
    exact (decodeTrace_isError_iff hlow hhigh).2 hreserved
  · refine exists_ok_of_not_error fun herror => ?_
    exact absurd (hlegal.symm.trans ((decodeTrace_isError_iff hlow hhigh).1 herror)) (by decide)
  · obtain ⟨e, hdecode⟩ := (decodePort_isError_iff w).2 hillegal
    refine ⟨_, step_of_illegalWord hphase hidle hhost hdecode, ⟨?_, rfl, rfl⟩, rfl, rfl, ⟨rfl, rfl⟩,
      ⟨rfl, rfl, rfl, rfl⟩, rfl, rfl, rfl, rfl, rfl, rfl, rfl⟩
    exact ⟨rfl, rfl, rfl, rfl, rfl, rfl, rfl⟩
  · refine Bool.eq_false_iff.2 fun hreserved => ?_
    obtain ⟨hlow, hhigh⟩ := traceOp_of_isReservedTraceWord hreserved
    obtain ⟨e, herror⟩ := (decodeTrace_isError_iff hlow hhigh).2 hreserved
    obtain ⟨i, hok⟩ := decodeTrace_of_emitted hstep htrace
    cases herror.symm.trans hok

end Sys2Proof.Machine

/-! # What a step runs, and where the host has no move

The instruction of a step (R66, R67), the instruction that `withFetchWord` places (notes/assumptions/13.md), and that no state
of the invariant stops. -/

namespace Sys2Proof.Machine

/-! ### The instruction of a step (R66, R67) -/

/-- While BUSY = 1 the move is the sequencer's: the current primitive's instruction (R13). -/
theorem step_eq_exec_prim {s : State} {p : Prim} {ps : List Prim} (hphase : s.phase ≠ .reserved) (hbusy : s.busy = true)
    (hplan : s.plan = p :: ps) : step s = exec p.toInstr s := by
  simp [step, agentStep, hphase, hbusy, sequencerMove, hplan]

/-- A legal word on the port of an idle block runs its command (R67). -/
theorem step_eq_exec_command {s : State} {w : Word16} {rest : List HostMove} {i : Instr} (hphase : s.phase ≠ .reserved)
    (hidle : s.busy = false) (hhost : s.host = .issue w :: rest) (hdecode : decodePort w = .ok i) :
    step s = exec i { s with host := rest } := by
  rw [step_eq_hostMove hphase hidle]
  simp only [hostMove, hhost, present, hdecode]

/-- Settles O6: the two moves that run an instruction. -/
theorem stepRunsDecodedInstruction : Obligations.StepRunsDecodedInstruction := by
  intro s hphase
  exact ⟨fun w rest i hidle hhost hdecode => step_eq_exec_command hphase hidle hhost hdecode,
    fun p ps hbusy hplan => step_eq_exec_prim hphase hbusy hplan⟩

/-- Settles O10: a busy block's step is a primitive's, which leaves the host's moves, and dispatch refuses a command. -/
theorem hostHasNoMoveWhileBusy : Obligations.HostHasNoMoveWhileBusy := by
  refine fun s hbusy => ⟨fun t h => ?_, fun i hcommand => ?_⟩
  · obtain ⟨-, u, heffect, rfl⟩ := step_effect h
    cases heffect with
    | primitive p ps _ hplan =>
      obtain ⟨-, -, hhost⟩ := primStep_sameWorld p s.draw s
      exact hhost
    | idles hidle | accepts _ _ _ hidle | rejects _ _ _ hidle => cases hbusy.symm.trans hidle
  · simp [exec_command hcommand, accept, hbusy]

/-- A running command has a primitive left (R67). -/
theorem Invariant.plan_ne_nil {s : State} (h : Invariant s) (hbusy : s.busy = true) : s.plan ≠ [] := by
  have hrunning := h.running hbusy
  unfold Running at hrunning
  split at hrunning
  · obtain ⟨-, -, -, before, after, -, hafter, hplan, -⟩ := hrunning
    rw [hplan]
    exact mt List.map_eq_nil_iff.1 hafter
  · obtain ⟨-, -, -, -, hplan, -⟩ := hrunning
    exact hplan
  · obtain ⟨-, -, -, hplan, -⟩ := hrunning
    exact hplan
  · obtain ⟨-, -, -, hplan, -⟩ := hrunning
    exact hplan
  · obtain ⟨-, -, -, hplan, -⟩ := hrunning
    exact hplan

/-- Settles O54: a running command has a primitive to run, and an idle block takes every word and every idle interval. -/
theorem invariantStatesNeverStop : Obligations.InvariantStatesNeverStop := by
  intro s h
  cases hbusy : s.busy with
  | true =>
    obtain ⟨p, ps, hplan⟩ := List.exists_cons_of_ne_nil (h.plan_ne_nil hbusy)
    exact ⟨_, (step_eq_exec_prim h.phase hbusy hplan).trans (exec_prim p s)⟩
  | false =>
    cases hhost : s.host with
    | nil => exact ⟨_, idleChangesOnlyNow s h.phase hbusy (.inl hhost)⟩
    | cons move rest =>
      cases move with
      | idle => exact ⟨_, idleChangesOnlyNow s h.phase hbusy (.inr ⟨rest, hhost⟩)⟩
      | issue w =>
        cases hdecode : decodePort w with
        | ok i =>
          rw [step_eq_exec_command h.phase hbusy hhost hdecode, exec_command (decodePort_command hdecode)]
          exact ⟨_, accept_idle hbusy⟩
        | error e => exact ⟨_, step_of_illegalWord h.phase hbusy hhost hdecode⟩

/-! ### The instruction that withFetchWord places (notes/assumptions/13.md) -/

/-- The table decoder reads every well-formed instruction from its word (R68, R71). -/
theorem decodeWord_encode {i : Instr} (hwf : i.wf = true) : decodeWord (encode i) = .ok i := by
  cases hcommand : isCommand i with
  | true => simp only [decodeWord, decodePort_encode hcommand]
  | false =>
    have htrace := decodeTrace_encode hcommand hwf
    simp only [decodeWord, decodePort_of_decodeTrace htrace, htrace]

theorem ofNat_toNat_mod (w : Word16) : BitVec.ofNat 16 (w.toNat % 2 ^ 16) = w := by
  rw [Nat.mod_eq_of_lt w.isLt, BitVec.ofNat_toNat, BitVec.setWidth_eq]

theorem primOf_toInstr (p : Prim) : primOf p.toInstr = some p := by
  cases p <;> simp [Prim.toInstr, primOf]

/-- A host command's word is placed on the port. -/
theorem placeWord_encode_command {i : Instr} (hcommand : isCommand i = true) (s : State) :
    placeWord (encode i) s = placeOnPort (encode i) s := by
  cases htrace : decodeTrace (encode i) with
  | ok j => cases (decodePort_encode hcommand).symm.trans (decodePort_of_decodeTrace htrace)
  | error e => simp only [placeWord, htrace]

/-- A primitive's word is placed in the plan. -/
theorem placeWord_encode_prim (p : Prim) (s : State) :
    placeWord (encode p.toInstr) s = placeInPlan (encode p.toInstr) p s := by
  simp only [placeWord, decodeTrace_toInstr, primOf_toInstr]

/-- Settles O7: the decoder reads back the word, and the step finds it on the port or in the plan. -/
theorem fetchedWordRuns : Obligations.FetchedWordRuns := by
  intro i s hwf hphase
  refine ⟨?_, fun hcommand => ?_, fun hcommand => ?_⟩
  · simp only [decodeTableWord, ofNat_toNat_mod, decodeWord_encode hwf]
  · rw [State.withFetchWord, ofNat_toNat_mod, placeWord_encode_command hcommand]
    exact step_eq_exec_command hphase rfl rfl (decodePort_encode hcommand)
  · obtain ⟨p, rfl⟩ := exists_prim_of_wf hcommand hwf
    rw [State.withFetchWord, ofNat_toNat_mod, placeWord_encode_prim]
    exact step_eq_exec_prim hphase rfl rfl

end Sys2Proof.Machine

/-! # RESP, the roles that words name, and the start of a SEND -/

namespace Sys2Proof.Machine

/-! ### RESP (R70) -/

/-- The response byte of a fault is 0x80 plus its code, which is 1 to 8 (R70, R113). -/
theorem respFault_range (c : FaultCode) : 0x81 ≤ (respFault c).toNat ∧ (respFault c).toNat ≤ 0x88 := by
  cases c <;> decide

/-- RESP in t is that of s, that of a success, or that of a fault. -/
def Responds (s t : State) : Prop := t.resp = s.resp ∨ t.resp = respOk ∨ ∃ c, t.resp = respFault c

theorem finish_responds (f : Finish) (s t : State) : Responds s (finish f t) := by
  cases f with
  | unavailable r => exact .inr (.inr ⟨_, rfl⟩)
  | done | acquired | broughtUp | closed => exact .inr (.inl rfl)

theorem raise_responds (c : FaultCode) (role : Option Role) (id : Option Nat) (s t : State) :
    Responds s (raise c role id t) := .inr (.inr ⟨c, rfl⟩)

theorem PrimEffect.responds {p : Prim} {s t : State} (h : PrimEffect p s t) : Responds s t := by
  cases h with
  | goesOn plan fin stage htouched =>
    obtain ⟨-, -, -, hresp⟩ := htouched.command
    exact .inl hresp
  | finishes htouched => exact finish_responds _ s _
  | faults c role id htouched hrel => exact raise_responds c role id s _

theorem Dispatched.responds {i : Instr} {d : Draw} {s t : State} (h : Dispatched i d s t) : Responds s t := by
  cases h with
  | runs p ps f hlegal hprogram => exact (primStep_effect p d (starting (p :: ps) f s)).responds
  | finishes f hlegal hprogram => exact finish_responds f s s
  | binds hi hphase halias => exact .inr (.inl rfl)
  | starts hi hphase => exact .inr (.inl rfl)
  | faults c role id hclose hstart => exact raise_responds c role id s s

theorem Effect.responds {s t : State} (h : Effect s t) : Responds s t := by
  cases h with
  | primitive p ps hbusy hplan => exact (primStep_effect p s.draw s).responds
  | idles hbusy hhost => exact .inl rfl
  | accepts w rest i hbusy hhost hdecode hword hdispatched => exact hdispatched.responds
  | rejects w rest e hbusy hhost hdecode => exact raise_responds _ _ _ s _

/-- Settles O42: a step leaves RESP, or ends a command with the byte of a success or of a fault. -/
theorem responseByteFormat : Obligations.ResponseByteFormat := by
  refine ⟨fun c => by cases c <;> decide, rfl, rfl, fun s t h => ?_⟩
  obtain ⟨-, u, heffect, rfl⟩ := step_effect h
  rw [elapse_resp]
  rcases heffect.responds with hsame | hok | ⟨c, hfault⟩
  · exact .inl hsame
  · exact .inr (.inl (by rw [hok]; rfl))
  · exact .inr (.inr (by rw [hfault]; exact respFault_range c))

/-! ### The roles that words name (R79) -/

/-- The role a primitive names is active; a delay names none. -/
def NamesActive (active : PerRole Bool) : Prim → Prop
  | .acq r => active.get r = true
  | .wr r _ => active.get r = true
  | .rel r => active.get r = true
  | .dly _ => True

theorem namesActive_of_isTransmission {active : PerRole Bool} {p : Prim} (h : isTransmission active p = true) :
    NamesActive active p := by
  cases p with
  | wr r b => exact h
  | dly c => trivial
  | acq _ | rel _ => cases h

/-- What a command has still to do names active roles (R79). -/
theorem InCommand.namesActive {s : State} (h : InCommand s) {p : Prim} (hp : p ∈ s.plan) : NamesActive s.active p := by
  cases h with
  | acquiring before after h =>
    rw [h.plan] at hp
    obtain ⟨r, hr, rfl⟩ := List.mem_map.1 hp
    have hmem : r ∈ acqOrder.filter s.active.get := h.roles ▸ List.mem_append_right before hr
    exact (List.mem_filter.1 hmem).2
  | releasing h =>
    obtain ⟨q, rfl, hactive⟩ := h.plan p hp
    exact hactive
  | transmitting h => exact namesActive_of_isTransmission (h.plan p hp)

/-- The word that a step emits is that of a primitive whose role is active. -/
theorem Invariant.emits {s u : State} {w : Word16} {x : Nat} (h : Invariant s) (heffect : Effect s u)
    (htrace : u.trace = s.trace ++ [(w, x)]) : ∃ p : Prim, w = encode p.toInstr ∧ NamesActive s.active p := by
  have hno (hsame : u.trace = s.trace) : False := by simp [hsame] at htrace
  cases heffect with
  | primitive p ps hbusy hplan =>
    exact ⟨p, word_of_append (primStep_effect p s.draw s).trace htrace,
      (h.inCommand hbusy).namesActive (hplan ▸ List.mem_cons_self)⟩
  | idles hbusy hhost => exact (hno rfl).elim
  | accepts v rest i hbusy hhost hdecode hencode hdispatched =>
    subst hencode
    have haccepted := h.accepted hbusy (encode i) rest
    rcases hdispatched.trace with hsame | ⟨p, ps, f, hlegal, hprogram, hemit⟩
    · exact (hno hsame).elim
    · rcases haccepted.inCommand hlegal hprogram with hmode | ⟨-, hplan, -⟩
      · exact ⟨p, word_of_append (.inr hemit) htrace, hmode.namesActive List.mem_cons_self⟩
      · cases hplan
  | rejects v rest e hbusy hhost hdecode => exact (hno rfl).elim

theorem delayClass_code_lt (c : DelayClass) : c.code.toNat < 4 := by
  cases c <;> decide

/-- Settles O47: the mode of the command gives the active role, and the primitive's word is read back. -/
theorem emittedRolesAreActive : Obligations.EmittedRolesAreActive := by
  intro s t w x h hstep htrace
  obtain ⟨-, u, heffect, rfl⟩ := step_effect hstep
  obtain ⟨p, rfl, hactive⟩ := h.emits heffect htrace
  have hdecode := decodeTrace_toInstr p
  cases p with
  | acq r => exact .inl ⟨r, hactive, .inl hdecode⟩
  | wr r b => exact .inl ⟨r, hactive, .inr (.inr ⟨b, hdecode⟩)⟩
  | rel r => exact .inl ⟨r, hactive, .inr (.inl hdecode)⟩
  | dly c => exact .inr ⟨c.code, delayClass_code_lt c, hdecode⟩

/-! ### The start of a SEND (R67, R91) -/

/-- No controller looks at a line that is no enable (R58). -/
theorem observe_not_enable {r : Role} (h : ¬IsEnable r) (e : Edge) (d : Draw) (s : State) : observe r e d s = s := by
  have happend (rec : LatchRec) : appendLatch r rec s = s := by
    cases r with
    | en => exact absurd (.inl rfl) h
    | en2 => exact absurd (.inr rfl) h
    | rs | d4 | d5 | d6 | d7 | bl => rfl
  rcases observe_cases r e d s with ⟨-, hs⟩ | ⟨-, hs⟩ | ⟨-, -, hs⟩ <;> simp only [hs, happend]

/-- A command that starts with a successful write of RS, a data line or the backlight, and has more to do (R67, R82). -/
theorem begin_write {r : Role} {b : Bool} {d : Draw} {w : Word16} {s : State} {q : Prim} {ps : List Prim}
    {f : Finish} (hr : ¬IsEnable r) (hacq : (s.pin.get r).acq = true) (hok : d.writeOk = true) :
    begin (.wr r b :: q :: ps) f d (accepted w s) =
      { setLvl r (some b) (emit (encode (.uwr r b)) s) with
        busy := true, cur := some w, upc := 1, plan := q :: ps, stage := 0, fin := f } := by
  have hwrite := writeStep_ok (s := starting (.wr r b :: q :: ps) f (accepted w s)) b hacq hok
  rw [observe_not_enable hr] at hwrite
  exact hwrite.trans (advance_more rfl)

/-- The outcome of an accepted SEND: the step of its sequence's first primitive (R67, R89). -/
theorem exec_send {tgt : Target} {mode : Mode} {v : Byte} {es : List Role} {s : State} (hidle : s.busy = false)
    (hphase : s.phase = .operational) (henables : enables tgt s.cfgNc = some es) :
    exec (.send tgt mode v) s = .next (elapse s.draw
      (begin (sendSeq es mode v) .done s.draw (accepted (encode (.send tgt mode v)) s))) := by
  have hlegal : legal (.send tgt mode v) s.phase = true := by simp [legal, hphase]
  rw [exec_command rfl, accept_idle hidle, if_pos hlegal]
  simp only [ruleOf, sendRule, accepted_cfgNc, henables]

/-- Settles O21: SendSeq starts with the write of RS, which goes on to the two nibbles. -/
theorem sendStartsWithRegisterSelect : Obligations.SendStartsWithRegisterSelect := by
  intro tgt mode v es s hidle hphase henables hacq hok
  refine ⟨_, exec_send hidle hphase henables, ?_⟩
  generalize encode (.send tgt mode v) = w
  obtain ⟨q, ps, hnibbles⟩ : ∃ q ps, sendNibble es (highNibble v) ++ sendNibble es (lowNibble v) = q :: ps := ⟨_, _, rfl⟩
  rw [sendSeq, hnibbles, begin_write (r := .rs) (s := s) (by simp [IsEnable]) hacq hok]
  exact ⟨⟨rfl, rfl, rfl, rfl, rfl, rfl, rfl⟩, rfl, rfl, ⟨rfl, rfl⟩, .refl s, rfl, rfl, rfl⟩

end Sys2Proof.Machine

/-! # The assembler (R73, R74) -/

namespace Sys2Proof.Assembler

/-! ### Numbers (R73) -/

/-- The digit of a number below the base is that number. -/
theorem digitValue_digitChar : ∀ b ≤ 16, ∀ d < b, digitValue b (Nat.digitChar d) = some d := by
  decide

theorem digitsValue_append_singleton (b acc : Nat) (xs : Text) (c : Char) :
    digitsValue b acc (xs ++ [c]) = (digitsValue b acc xs).bind fun a => (digitValue b c).map fun v => a * b + v := by
  induction xs generalizing acc with
  | nil => cases h : digitValue b c <;> simp [digitsValue, h]
  | cons x xs ih =>
    cases h : digitValue b x with
    | none => simp [digitsValue, h]
    | some v => simp [digitsValue, h, ih]

/-- The digits of n in a base up to 16 write n. -/
theorem digitsValue_toDigits {b : Nat} (hb : 1 < b) (hb16 : b ≤ 16) (n : Nat) :
    digitsValue b 0 (Nat.toDigits b n) = some n := by
  induction n using Nat.strongRecOn with
  | ind n ih =>
    rw [Nat.toDigits_eq_if hb]
    split
    · next hlt => simp [digitsValue, digitValue_digitChar b hb16 n hlt]
    · next hge =>
      have hpos : 0 < n := by omega
      have hdigit := digitValue_digitChar b hb16 (n % b) (Nat.mod_lt n (by omega))
      rw [digitsValue_append_singleton, ih (n / b) (Nat.div_lt_self hpos hb), hdigit]
      simp [Nat.div_add_mod']

/-- What the digits of n are read as: n itself when it is a byte, and nothing else (R73). -/
theorem byteOf_toDigits {b : Nat} (hb : 1 < b) (hb16 : b ≤ 16) (n : Nat) :
    byteOf b (Nat.toDigits b n) = if n < 256 then some (BitVec.ofNat 8 n) else none := by
  simp [byteOf, Nat.toDigits_ne_nil, digitsValue_toDigits hb hb16]

/-- A text of decimal digits is read as a decimal number. -/
theorem parseImm8_of_isDigit {ds : Text} (h : ∀ c ∈ ds, c.isDigit = true) : parseImm8 ds = byteOf 10 ds := by
  unfold parseImm8
  split
  · exact absurd (h 'x' (by simp)) (by decide)
  · exact absurd (h 'b' (by simp)) (by decide)
  · rfl

theorem parseImm8_decimal (n : Nat) :
    parseImm8 (Nat.toDigits 10 n) = if n < 256 then some (BitVec.ofNat 8 n) else none := by
  rw [parseImm8_of_isDigit fun c => Nat.isDigit_of_mem_toDigits (by decide) (by decide)]
  exact byteOf_toDigits (by decide) (by decide) n

/-- A digit as the disassembler prints it is read back. -/
theorem digitValue_hexDigit : ∀ d < 16, digitValue 16 (hexDigit d) = some d := by
  decide

/-- The disassembler's imm8 is read back (R73). -/
theorem parseImm8_hexText (v : Byte) : parseImm8 (hexText v) = some v := by
  have hhigh : v.toNat / 16 < 16 := by have := v.isLt; omega
  have hlow : v.toNat % 16 < 16 := Nat.mod_lt _ (by decide)
  show byteOf 16 [hexDigit (v.toNat / 16), hexDigit (v.toNat % 16)] = some v
  simpa [byteOf, digitsValue, digitValue_hexDigit _ hhigh, digitValue_hexDigit _ hlow, Nat.div_add_mod'] using v.isLt

/-! ### Lines (R73) -/

/-- A character that neither parts words nor starts a comment. -/
def IsPlain (c : Char) : Prop := c ≠ ' ' ∧ c ≠ ';'

theorem isPlain_of_digitValue {b : Nat} {c : Char} {v : Nat} (hb : b ≤ 16) (h : digitValue b c = some v) : IsPlain c := by
  refine ⟨?_, ?_⟩ <;> rintro rfl <;> simp [digitValue] at h <;> omega

theorem isPlain_of_digitsValue {b acc n : Nat} {cs : Text} (hb : b ≤ 16) (h : digitsValue b acc cs = some n) :
    ∀ c ∈ cs, IsPlain c := by
  induction cs generalizing acc with
  | nil => nofun
  | cons x xs ih =>
    unfold digitsValue at h
    split at h
    · next v hv => exact List.forall_mem_cons.2 ⟨isPlain_of_digitValue hb hv, ih h⟩
    · cases h

theorem isPlain_of_byteOf {b : Nat} {cs : Text} {v : Byte} (hb : b ≤ 16) (h : byteOf b cs = some v) :
    cs ≠ [] ∧ ∀ c ∈ cs, IsPlain c := by
  unfold byteOf at h
  split at h
  · cases h
  · next hne =>
    split at h
    · next n hn => exact ⟨by simpa using hne, isPlain_of_digitsValue hb hn⟩
    · cases h

/-- The text of an imm8 is one word without a comment. -/
theorem isPlain_of_parseImm8 {cs : Text} {v : Byte} (h : parseImm8 cs = some v) : cs ≠ [] ∧ ∀ c ∈ cs, IsPlain c := by
  have hzero : IsPlain '0' := by simp [IsPlain]
  unfold parseImm8 at h
  split at h
  · obtain ⟨-, hplain⟩ := isPlain_of_byteOf (by decide) h
    exact ⟨nofun, List.forall_mem_cons.2 ⟨hzero, List.forall_mem_cons.2 ⟨by simp [IsPlain], hplain⟩⟩⟩
  · obtain ⟨-, hplain⟩ := isPlain_of_byteOf (by decide) h
    exact ⟨nofun, List.forall_mem_cons.2 ⟨hzero, List.forall_mem_cons.2 ⟨by simp [IsPlain], hplain⟩⟩⟩
  · exact isPlain_of_byteOf (by decide) h

/-- Characters that part no words go to the word that is being read. -/
theorem pieces_append {xs : Text} (hxs : ∀ c ∈ xs, IsPlain c) (acc ys : Text) :
    pieces (· == ' ') acc (xs ++ ys) = pieces (· == ' ') (xs.reverse ++ acc) ys := by
  induction xs generalizing acc with
  | nil => rfl
  | cons x xs ih =>
    obtain ⟨⟨hblank, -⟩, hxs⟩ := List.forall_mem_cons.1 hxs
    have hsep : (x == ' ') = false := by simpa using hblank
    simp only [List.cons_append, pieces, hsep, ih hxs]
    simp

/-- A line of two words is a name and an operand. -/
theorem parseLine_operand {name a : Text} (hname : name ≠ [] ∧ ∀ c ∈ name, IsPlain c) (ha : a ≠ [] ∧ ∀ c ∈ a, IsPlain c) :
    parseLine (name ++ [' '] ++ a) = parseOperand name a := by
  obtain ⟨hname, hplain⟩ := hname
  obtain ⟨ha, haplain⟩ := ha
  have hcomment : (name ++ [' '] ++ a).takeWhile (· != ';') = name ++ ' ' :: a := by
    rw [List.append_assoc, List.singleton_append, List.takeWhile_eq_self_iff]
    intro c hc
    rcases List.mem_append.1 hc with hc | hc
    · simpa using (hplain c hc).2
    · rcases List.mem_cons.1 hc with rfl | hc
      · rfl
      · simpa using (haplain c hc).2
  have hwords : pieces (· == ' ') [] (name ++ ' ' :: a) = [name, a] := by
    have hlast := pieces_append haplain [] []
    rw [List.append_nil] at hlast
    rw [pieces_append hplain]
    simp [pieces, hlast, hname, ha]
  simp only [parseLine, hcomment, hwords]

/-! ### Commands and pseudo-instructions (R73, R74) -/

theorem isPlain_sendName (tgt : Target) (mode : Mode) : sendName tgt mode ≠ [] ∧ ∀ c ∈ sendName tgt mode, IsPlain c := by
  cases tgt <;> cases mode <;> simp [sendName, targetName, modeName, IsPlain]

theorem parseSendName_sendName (tgt : Target) (mode : Mode) : parseSendName (sendName tgt mode) = some (tgt, mode) := by
  cases tgt <;> cases mode <;> decide

/-- The mnemonic of a SEND is no other name that takes an operand. -/
theorem sendName_ne (tgt : Target) (mode : Mode) :
    sendName tgt mode ≠ ['b', 'l'] ∧ sendName tgt mode ≠ ['c', 'm', 'd'] ∧ sendName tgt mode ≠ ['d', 'a', 't'] := by
  simp [sendName]

theorem parseOperand_sendName (tgt : Target) (mode : Mode) {text : Text} {v : Byte} (h : parseImm8 text = some v) :
    parseOperand (sendName tgt mode) text = some [.send tgt mode v] := by
  obtain ⟨hbl, hcmd, hdat⟩ := sendName_ne tgt mode
  simp [parseOperand, hbl, hcmd, hdat, parseSendName_sendName, h]

/-- `cmd` and `dat` stand for `send.all.i` and `send.all.d` (R74). -/
theorem parseOperand_cmd_dat {text : Text} {v : Byte} (h : parseImm8 text = some v) :
    parseOperand ['c', 'm', 'd'] text = some [.send .all .instruction v] ∧
    parseOperand ['d', 'a', 't'] text = some [.send .all .data v] := by
  simp [parseOperand, expand, h]

/-- A line of a name and an imm8 that is read as one command assembles to its word. -/
theorem assembleLine_operand {name text : Text} {v : Byte} {i : Instr} (hname : name ≠ [] ∧ ∀ c ∈ name, IsPlain c)
    (htext : parseImm8 text = some v) (h : parseOperand name text = some [i]) :
    assembleLine (name ++ [' '] ++ text) = some [encode i] := by
  rw [assembleLine, parseLine_operand hname (isPlain_of_parseImm8 htext), h]
  rfl

theorem assembleLine_cmd_dat {text : Text} {v : Byte} (h : parseImm8 text = some v) :
    assembleLine (['c', 'm', 'd', ' '] ++ text) = some [encode (.send .all .instruction v)] ∧
    assembleLine (['d', 'a', 't', ' '] ++ text) = some [encode (.send .all .data v)] := by
  obtain ⟨hcmd, hdat⟩ := parseOperand_cmd_dat h
  exact ⟨assembleLine_operand (by simp [IsPlain]) h hcmd, assembleLine_operand (by simp [IsPlain]) h hdat⟩

/-- The printed text of a host command assembles to its word (R73). -/
theorem assembleLine_print {i : Instr} (hcommand : Machine.isCommand i = true) :
    ∃ text, print i = some text ∧ assembleLine text = some [encode i] := by
  cases i with
  | send tgt mode v => exact ⟨_, rfl, assembleLine_operand (isPlain_sendName tgt mode)
      (parseImm8_hexText v) (parseOperand_sendName tgt mode (parseImm8_hexText v))⟩
  | bl state => cases state <;> exact ⟨_, rfl, by decide⟩
  | bind | acqall | bringup | start | close => exact ⟨_, rfl, by decide⟩
  | uacq _ | uwr _ _ | urel _ | udly _ => cases hcommand

/-- Every primitive's instruction has a text (R73). -/
theorem exists_print_toInstr (p : Machine.Prim) : ∃ text, print p.toInstr = some text := by
  cases p with
  | dly c => cases c <;> exact ⟨_, rfl⟩
  | acq _ | wr _ _ | rel _ => exact ⟨_, rfl⟩

/-- Settles O5: the lines of a name and an operand are read back, the digits of a number are its value, and the rest are
closed texts. -/
theorem assemblerReadsBackEveryCommand : Obligations.AssemblerReadsBackEveryCommand := by
  refine ⟨fun i hcommand => assembleLine_print hcommand, fun n hn => ⟨?_, ?_, ?_⟩, fun n hn => ?_, fun r name hname => ?_,
    rfl, rfl, rfl, rfl, fun i hwf => ?_, by decide, by decide, fun v text h => assembleLine_cmd_dat h⟩
  · rw [parseImm8_decimal, if_pos hn]
  · exact (byteOf_toDigits (b := 16) (by decide) (by decide) n).trans (if_pos hn)
  · exact (byteOf_toDigits (b := 2) (by decide) (by decide) n).trans (if_pos hn)
  · rw [parseImm8_decimal, if_neg (Nat.not_lt.2 hn)]
  · obtain rfl : name = roleName r := by
      revert hname
      cases r <;> simp [roleName]
    exact ⟨rfl, rfl, rfl, rfl⟩
  · cases hcommand : Machine.isCommand i with
    | true =>
      obtain ⟨text, hprint, -⟩ := assembleLine_print hcommand
      exact ⟨text, hprint⟩
    | false =>
      obtain ⟨p, rfl⟩ := Machine.exists_prim_of_wf hcommand hwf
      exact exists_print_toInstr p

/-- Settles O4: a decoded word is the encoding that is computed here, and its text is assembled or printed. -/
theorem workedEncodings : Obligations.WorkedEncodings :=
  ⟨Machine.decodeWord_encode (i := .send .first .instruction 0x33) rfl, rfl, by decide,
    Machine.decodeWord_encode (i := .send .first .instruction 0x32) rfl, rfl, by decide,
    Machine.decodeWord_encode (i := .send .all .data 0x41) rfl, rfl, by decide,
    Machine.decodeWord_encode (i := .send .second .data 0x42) rfl, rfl, by decide,
    Machine.decodeWord_encode (i := .bl true) rfl, rfl, by decide,
    Machine.decodeWord_encode (i := .uwr .rs true) rfl, rfl, rfl,
    Machine.decodeWord_encode (i := .uwr .d7 false) rfl, rfl, rfl,
    Machine.decodeWord_encode (i := .uwr .en2 true) rfl, rfl, rfl,
    Machine.decodeWord_encode (i := .uacq .bl) rfl, rfl, rfl,
    Machine.decodeWord_encode (i := .urel .en) rfl, rfl, rfl,
    Machine.decodeWord_encode (i := .udly 0) rfl, rfl, rfl,
    Machine.decodeWord_encode (i := .udly 2) rfl, rfl, rfl⟩

end Sys2Proof.Assembler

/-! # The primitives of the pin manager

A primitive's step first writes (`Touched`), and then the command goes on, ends or faults in the same step (R13): what each of
these leaves is said once, and the statements of UACQ, UWR, UREL and UDLY (R81 to R84) are put together from it. -/

namespace Sys2Proof.Machine

/-! ### A primitive's instruction -/

/-- The instruction of a primitive leads to the result of its step, after its bound and the drawn duration, and writes the
latches of the enables that it drives only (R56, R58). -/
theorem exec_primStep {p : Prim} {s u : State} (h : primStep p s.draw s = u) :
    exec p.toInstr s = .next (elapse s.draw u) ∧ TimePassed (primBound s.params p) s (elapse s.draw u) ∧
      (¬Drives p .en → u.latch1 = s.latch1) ∧ (¬Drives p .en2 → u.latch2 = s.latch2) := by
  subst h
  have hrecorded := primStep_recorded p s.draw s
  refine ⟨exec_prim p s, hrecorded.timePassed, fun hen => ?_, fun hen2 => ?_⟩ <;> by_contra hchange
  · exact hen (hrecorded.latches .en (.inl rfl) hchange).1
  · exact hen2 (hrecorded.latches .en2 (.inr rfl) hchange).1

theorem drives_wr_iff {r q : Role} {b : Bool} : Drives (.wr r b) q ↔ r = q := by simp [Drives]

theorem drives_rel_iff {r q : Role} : Drives (.rel r) q ↔ r = q := by simp [Drives]

theorem not_drives_acq (r q : Role) : ¬Drives (.acq r) q := by simp [Drives]

theorem not_drives_dly (c : DelayClass) (q : Role) : ¬Drives (.dly c) q := by simp [Drives]

/-! ### What the end of a primitive keeps -/

@[simp] theorem continueWith_pin (plan : List Prim) (f : Finish) (s : State) : (continueWith plan f s).pin = s.pin := by
  cases plan with
  | nil => exact (finish_frame f s).1
  | cons p ps => rfl

@[simp] theorem advance_pin (s : State) : (advance s).pin = s.pin := continueWith_pin s.plan.tail s.fin s

@[simp] theorem advance_trace (s : State) : (advance s).trace = s.trace := congrArg Records.trace (recordsOf_advance s)

theorem advance_sameLatches (s : State) : SameLatches s (advance s) :=
  ⟨congrArg Records.latch1 (recordsOf_advance s), congrArg Records.latch2 (recordsOf_advance s)⟩

/-! ### The command goes on, ends or faults -/

/-- The primitive goes on with its next request (R33). -/
theorem Touched.nextStage_goesOn {p : Prim} {s u : State} (h : Touched p s u) (d : Draw) :
    WentOn s.plan (s.stage + 1) s (elapse d (Machine.nextStage u)) ∧ Untouched s (elapse d (Machine.nextStage u)) := by
  obtain ⟨hbusy, hcur, hupc, hresp⟩ := h.command
  obtain ⟨hplan, hstage, hfin⟩ := h.position
  exact ⟨⟨hbusy, hcur, congrArg (· + 1) hupc, hresp, hplan, congrArg (· + 1) hstage, hfin⟩, h.untouched⟩

/-- The command goes on with its next primitive (R33). -/
theorem Touched.advance_goesOn {p q : Prim} {rest : List Prim} {s u : State} (h : Touched p s u)
    (hplan : s.plan = q :: rest) (hrest : rest ≠ []) (d : Draw) :
    WentOn rest 0 s (elapse d (Machine.advance u)) ∧ Untouched s (elapse d (Machine.advance u)) := by
  obtain ⟨hbusy, hcur, hupc, hresp⟩ := h.command
  obtain ⟨hposition, -, hfin⟩ := h.position
  obtain ⟨next, ps, rfl⟩ := List.exists_cons_of_ne_nil hrest
  rw [advance_more (hposition.trans hplan)]
  exact ⟨⟨hbusy, hcur, congrArg (· + 1) hupc, hresp, rfl, rfl, hfin⟩, h.untouched⟩

/-- The last primitive is followed by the command's closing action. -/
theorem Touched.advance_finishes {p q : Prim} {f : Finish} {s u : State} (h : Touched p s u) (hplan : s.plan = [q])
    (hfin : s.fin = f) : Machine.advance u = finish f u := by
  obtain ⟨hposition, -, hposition_fin⟩ := h.position
  rw [advance_last (hposition.trans hplan), hposition_fin, hfin]

/-- A SEND or BL that goes on or ends writes nothing more (R89, R95). -/
theorem Touched.advance_untouched {p : Prim} {s u : State} (h : Touched p s u) (hfin : s.fin = .done) :
    Untouched s (Machine.advance u) := by
  obtain ⟨-, -, hposition_fin⟩ := h.position
  unfold Machine.advance
  rw [hposition_fin, hfin]
  cases u.plan.tail with
  | nil => exact h.untouched
  | cons q qs => exact h.untouched

theorem endCommand_ended (b : Byte) (d : Draw) (s : State) : Ended b (elapse d (endCommand b s)) :=
  ⟨rfl, rfl, rfl, rfl, rfl, rfl, rfl⟩

/-- The fault procedure after a primitive's writes (R116). -/
theorem Touched.raise_faulted {p : Prim} {s u : State} (h : Touched p s u) (c : FaultCode) (role : Option Role)
    (id : Option Nat) (d : Draw) :
    Faulted c role id (s.cur.getD 0x0000) s (elapse d (raise c role id u)) := by
  obtain ⟨hphase, hfault, -⟩ := h.untouched
  obtain ⟨-, hcur, -⟩ := h.command
  refine ⟨endCommand_ended _ d _, ?_, ?_⟩
  · simp [recordFault, hfault, hcur]
  · simp [hphase]

/-! ### UACQ (R81) -/

/-- A failed request of Acquire(r) leaves PIN, and emits its word at the first request only. -/
theorem acquireStep_fails {r : Role} {d : Draw} {s : State}
    (h : (s.stage = 0 ∧ d.exportOk = false) ∨ (s.stage = 1 ∧ d.dirOk = false) ∨ (s.stage = 2 ∧ d.openOk = false)) :
    ∃ u, acquireStep r d s = acquireFailed r u ∧ Touched (.acq r) s u ∧ u.pin = s.pin ∧
      u.trace = s.trace ++ (if s.stage = 0 then [(encode (.uacq r), s.now)] else []) := by
  rcases h with ⟨hstage, hfail⟩ | ⟨hstage, hfail⟩ | ⟨hstage, hfail⟩
  · exact ⟨emit (encode (.uacq r)) s, by simp [acquireStep, hstage, hfail], .emit _ s, rfl, by simp [hstage]⟩
  · exact ⟨s, by simp [acquireStep, hstage, hfail], .refl _ s, rfl, by simp [hstage]⟩
  · exact ⟨s, by simp [acquireStep, hstage, hfail], .refl _ s, rfl, by simp [hstage]⟩

/-- Without P_UNWIND a failed Acquire(r) faults at once (R103). -/
theorem acquireFailed_eq_raise {s : State} (h : s.params.unwind = false) (r : Role) :
    acquireFailed r s = raise .pinUnavailable (some r) (s.bind.get r) s := by
  simp [acquireFailed, unwindSeq, h, continueWith_nil, finish]

/-- A step of UACQ writes no latch and has no least duration. -/
theorem exec_uacq {r : Role} {s u : State} (h : acquireStep r s.draw s = u) :
    exec (.uacq r) s = .next (elapse s.draw u) ∧ SameLatches s (elapse s.draw u) ∧ TimePassed 0 s (elapse s.draw u) := by
  obtain ⟨hexec, htime, hlatch1, hlatch2⟩ := exec_primStep (p := .acq r) h
  exact ⟨hexec, ⟨hlatch1 (not_drives_acq r _), hlatch2 (not_drives_acq r _)⟩, htime⟩

/-- Settles O11: each request goes on, acquires the pin, or fails without a write of PIN. -/
theorem uacqAcquiresInThreeSteps : Obligations.UacqAcquiresInThreeSteps := by
  intro r s rest hplan
  have hemit : Touched (.acq r) s (emit (encode (.uacq r)) s) := .emit _ s
  have hacquired : Touched (.acq r) s (setPin r Pin.acquired s) := (Touched.refl _ s).setPin r _
  have hopens (hstage : s.stage = 2) (hok : s.draw.openOk = true) :=
    exec_uacq (r := r) (s := s) (u := advance (setPin r Pin.acquired s)) (by simp [acquireStep, hstage, hok])
  refine ⟨fun hstage hok => ?_, fun hstage hok => ?_, fun hstage hok hrest => ?_, fun hstage hok hrest hfin => ?_,
    fun hunwind hfails => ?_⟩
  · obtain ⟨hexec, hlatches, htime⟩ := exec_uacq (r := r) (s := s) (u := nextStage (emit (encode (.uacq r)) s))
      (by simp [acquireStep, hstage, hok])
    obtain ⟨hon, huntouched⟩ := hemit.nextStage_goesOn s.draw
    rw [hstage] at hon
    exact ⟨_, hexec, rfl, rfl, hon, hlatches, huntouched, htime⟩
  · obtain ⟨hexec, hlatches, htime⟩ := exec_uacq (r := r) (s := s) (u := nextStage s)
      (by simp [acquireStep, hstage, hok])
    obtain ⟨hon, huntouched⟩ := (Touched.refl (.acq r) s).nextStage_goesOn s.draw
    rw [hstage] at hon
    exact ⟨_, hexec, rfl, rfl, hon, hlatches, huntouched, htime⟩
  · obtain ⟨hexec, hlatches, htime⟩ := hopens hstage hok
    obtain ⟨hon, huntouched⟩ := hacquired.advance_goesOn hplan hrest s.draw
    exact ⟨_, hexec, advance_trace _, advance_pin _, hon, hlatches, huntouched, htime⟩
  · subst hrest
    obtain ⟨hexec, hlatches, htime⟩ := hopens hstage hok
    rw [hacquired.advance_finishes hplan hfin] at hexec hlatches htime
    exact ⟨_, hexec, rfl, rfl, endCommand_ended _ _ _, rfl, rfl, rfl, ⟨rfl, rfl, rfl, rfl⟩, ⟨rfl, rfl, rfl⟩, hlatches, htime⟩
  · obtain ⟨u, hstep, hu, hpin, htrace⟩ := acquireStep_fails (r := r) hfails
    have hfaulted := hu.raise_faulted .pinUnavailable (some r) (s.bind.get r) s.draw
    obtain ⟨-, -, hhooks, hbinding, hworld⟩ := hu.untouched
    have ⟨_, _, _, hbind⟩ := hbinding
    have ⟨hparams, _, _⟩ := hworld
    rw [acquireFailed_eq_raise (by rw [hparams, hunwind]), hbind] at hstep
    obtain ⟨hexec, hlatches, htime⟩ := exec_uacq hstep
    exact ⟨_, hexec, htrace, hpin, hfaulted, hlatches, hbinding, hhooks, hworld, htime⟩

/-! ### UWR (R82, R87) -/

/-- What a write of an acquired pin leaves before its command goes on, ends or faults. -/
theorem touched_written (r : Role) (b : Bool) (l : Option Bool) (e : Edge) (d : Draw) (s : State) :
    Touched (.wr r b) s (setLvl r l (observe r e d (emit (encode (.uwr r b)) s))) :=
  ((Touched.emit (.wr r b) s).observe r e d).setPin r _

/-- A step of UWR writes the latches of its own role's controller only, and has no least duration. -/
theorem exec_uwr {r : Role} {b : Bool} {s u : State} (h : writeStep r b s.draw s = u) :
    exec (.uwr r b) s = .next (elapse s.draw u) ∧ (r ≠ .en → (elapse s.draw u).latch1 = s.latch1) ∧
      (r ≠ .en2 → (elapse s.draw u).latch2 = s.latch2) ∧ TimePassed 0 s (elapse s.draw u) := by
  obtain ⟨hexec, htime, hlatch1, hlatch2⟩ := exec_primStep (p := .wr r b) h
  rw [drives_wr_iff] at hlatch1 hlatch2
  exact ⟨hexec, hlatch1, hlatch2, htime⟩

/-- Settles O13: a write of an acquired pin sets its level, or leaves it undefined with a fault; a write of another pin faults. -/
theorem uwrWritesTheLevel : Obligations.UwrWritesTheLevel := by
  intro r b s
  refine ⟨fun q rest hplan hacq hok => ?_, fun hplan hfin hacq hok => ?_, fun hacq hfail => ?_, fun hacq => ?_⟩
  · obtain ⟨hexec, hlatch1, hlatch2, htime⟩ := exec_uwr (writeStep_ok b hacq hok)
    obtain ⟨hon, huntouched⟩ := (touched_written r b _ _ _ s).advance_goesOn hplan (List.cons_ne_nil q rest) s.draw
    exact ⟨_, hexec, by simp, by simp, hon, hlatch1, hlatch2, huntouched, htime⟩
  · have hwritten := touched_written r b (some b) (writeEdge (s.pin.get r).lvl b true) s.draw s
    obtain ⟨hexec, hlatch1, hlatch2, htime⟩ := exec_uwr (writeStep_ok b hacq hok)
    rw [hwritten.advance_finishes hplan hfin] at hexec hlatch1 hlatch2 htime
    exact ⟨_, hexec, by simp [finish], by simp [finish], endCommand_ended _ _ _, hlatch1, hlatch2, hwritten.untouched, htime⟩
  · have hwritten := touched_written r b none (writeEdge (s.pin.get r).lvl b false) s.draw s
    obtain ⟨hexec, hlatch1, hlatch2, htime⟩ := exec_uwr (writeStep_fails b hacq hfail)
    obtain ⟨-, -, hhooks, hbinding, hworld⟩ := hwritten.untouched
    exact ⟨_, hexec, by simp, by simp, hwritten.raise_faulted _ _ _ _, hlatch1, hlatch2, hbinding, hhooks, hworld, htime⟩
  · obtain ⟨hexec, -, -, htime⟩ := exec_uwr (writeStep_unacquired b hacq)
    exact ⟨_, hexec, rfl, rfl, ⟨rfl, rfl⟩, (Touched.refl (.wr r b) s).raise_faulted _ _ _ _, ⟨rfl, rfl, rfl, rfl⟩, rfl,
      ⟨rfl, rfl, rfl⟩, htime⟩

/-- A write changes one level at most, and neither another pin nor how the pin is held. -/
theorem writeStep_pin (r : Role) (b : Bool) (d : Draw) (s : State) :
    (∀ q, q ≠ r → (writeStep r b d s).pin.get q = s.pin.get q) ∧
      SameHold (s.pin.get r) ((writeStep r b d s).pin.get r) := by
  obtain ⟨l, hpin⟩ : ∃ l, (writeStep r b d s).pin = s.pin.set r { s.pin.get r with lvl := l } := by
    rcases writeStep_cases r b d s with ⟨-, -, h⟩ | ⟨-, -, h⟩ | ⟨-, h⟩ <;> rw [h]
    · exact ⟨some b, by simp⟩
    · exact ⟨none, by simp⟩
    · exact ⟨(s.pin.get r).lvl, (PerRole.set_get s.pin r).symm⟩
  rw [hpin, PerRole.get_set_self]
  exact ⟨fun q hq => PerRole.get_set_ne s.pin _ hq, rfl, rfl, rfl⟩

/-- Settles O14: a write changes one level, and a SEND or BL that does not fault goes on or ends without more. -/
theorem uwrChangesOnlyItsLine : Obligations.UwrChangesOnlyItsLine := by
  intro r b s t hfin ht
  cases (exec_uwr rfl).1.symm.trans ht
  obtain ⟨hothers, hhold⟩ := writeStep_pin r b s.draw s
  refine ⟨hothers, hhold, ?_⟩
  rcases writeStep_cases r b s.draw s with ⟨hacq, hok, h⟩ | ⟨hacq, hfail, h⟩ | ⟨hacq, h⟩ <;> rw [h]
  · obtain ⟨hphase, hfault, -, hbinding, -⟩ := (touched_written r b (some b) _ s.draw s).advance_untouched hfin
    exact ⟨hbinding, fun _ _ => ⟨hphase, hfault⟩, fun _ hfail => by simp [hok] at hfail⟩
  · have hwritten := touched_written r b none (writeEdge (s.pin.get r).lvl b false) s.draw s
    obtain ⟨-, -, -, hbinding, -⟩ := hwritten.untouched
    exact ⟨hbinding, fun _ hok => by simp [hfail] at hok, fun _ _ => hwritten.raise_faulted _ _ _ _⟩
  · exact ⟨⟨rfl, rfl, rfl, rfl⟩, by simp [hacq], by simp [hacq]⟩

/-! ### UREL (R83, R86) -/

/-- A step of UREL writes the latches of its own role's controller only, and has no least duration. -/
theorem exec_urel {r : Role} {s u : State} (h : releaseStep r s.draw s = u) :
    exec (.urel r) s = .next (elapse s.draw u) ∧ (r ≠ .en → (elapse s.draw u).latch1 = s.latch1) ∧
      (r ≠ .en2 → (elapse s.draw u).latch2 = s.latch2) ∧ TimePassed 0 s (elapse s.draw u) := by
  obtain ⟨hexec, htime, hlatch1, hlatch2⟩ := exec_primStep (p := .rel r) h
  rw [drives_rel_iff] at hlatch1 hlatch2
  exact ⟨hexec, hlatch1, hlatch2, htime⟩

/-- CLOSE after its last Release: the binding is freed (R110). -/
theorem Touched.finish_closed {p : Prim} {s u : State} (h : Touched p s u) (d : Draw) :
    (elapse d (finish .closed u)).phase = .released ∧ Unbound (elapse d (finish .closed u)) ∧
      (elapse d (finish .closed u)).hooks = 0b00 ∧ (elapse d (finish .closed u)).fault = s.fault ∧
      SameWorld s (elapse d (finish .closed u)) := by
  obtain ⟨-, hfault, -, -, hworld⟩ := h.untouched
  exact ⟨rfl, ⟨rfl, rfl, rfl, rfl⟩, rfl, hfault, hworld⟩

/-- The one step of a Release of a pin that is not acquired (R83). -/
theorem releaseStep_unacquired {r : Role} {s : State} (d : Draw) (hacq : (s.pin.get r).acq = false) (hstage : s.stage = 0) :
    releaseStep r d s = advance (emit (encode (.urel r)) s) := by
  simp [releaseStep, hstage, hacq]

/-- Settles O15: the first step of an acquired pin emits the word, the third sets the pin idle and moves on, and the one step of
another pin emits the word and moves on. -/
theorem urelReleasesThePin : Obligations.UrelReleasesThePin := by
  intro r s rest hplan
  have hemit : Touched (.rel r) s (emit (encode (.urel r)) s) := .emit _ s
  have hidle : Touched (.rel r) s (setPin r Pin.idle s) := (Touched.refl _ s).setPin r _
  have hcloses (hstage : s.stage = 2) :=
    exec_urel (r := r) (s := s) (u := advance (setPin r Pin.idle s)) (by simp [releaseStep, hstage])
  refine ⟨fun hacq hstage => ?_, fun hacq hstage hrest => ?_, fun hacq hstage hrest hfin => ?_, fun hstage => ?_,
    fun hstage hrest => ?_, fun hstage hrest hfin => ?_, fun hstage hrest q hfin => ?_⟩
  · obtain ⟨hexec, hlatch1, hlatch2, htime⟩ := exec_urel (r := r) (s := s)
      (u := nextStage (observe r (releaseEdge (s.pin.get r).lvl) s.draw (emit (encode (.urel r)) s)))
      (by simp [releaseStep, hstage, hacq])
    obtain ⟨hon, huntouched⟩ := (hemit.observe r (releaseEdge (s.pin.get r).lvl) s.draw).nextStage_goesOn s.draw
    rw [hstage] at hon
    exact ⟨_, hexec, by simp, by simp, hon, hlatch1, hlatch2, huntouched, htime⟩
  · obtain ⟨hexec, -, -, htime⟩ := exec_urel (releaseStep_unacquired s.draw hacq hstage)
    obtain ⟨hon, huntouched⟩ := hemit.advance_goesOn hplan hrest s.draw
    exact ⟨_, hexec, advance_trace _, advance_pin _, hon, advance_sameLatches _, huntouched, htime⟩
  · subst hrest
    obtain ⟨hexec, -, -, htime⟩ := exec_urel (releaseStep_unacquired s.draw hacq hstage)
    rw [hemit.advance_finishes hplan hfin] at hexec htime
    obtain ⟨hphase, hunbound, hhooks, hfault, hworld⟩ := hemit.finish_closed s.draw
    exact ⟨_, hexec, rfl, rfl, endCommand_ended _ _ _, hphase, hunbound, hhooks, hfault, hworld, ⟨rfl, rfl⟩, htime⟩
  · obtain ⟨hexec, -, -, htime⟩ := exec_urel (r := r) (s := s) (u := nextStage s) (by simp [releaseStep, hstage])
    obtain ⟨hon, huntouched⟩ := (Touched.refl (.rel r) s).nextStage_goesOn s.draw
    rw [hstage] at hon
    exact ⟨_, hexec, rfl, rfl, hon, ⟨rfl, rfl⟩, huntouched, htime⟩
  · obtain ⟨hexec, -, -, htime⟩ := hcloses hstage
    obtain ⟨hon, huntouched⟩ := hidle.advance_goesOn hplan hrest s.draw
    exact ⟨_, hexec, advance_trace _, advance_pin _, hon, advance_sameLatches _, huntouched, htime⟩
  · subst hrest
    obtain ⟨hexec, -, -, htime⟩ := hcloses hstage
    rw [hidle.advance_finishes hplan hfin] at hexec htime
    obtain ⟨hphase, hunbound, hhooks, hfault, hworld⟩ := hidle.finish_closed s.draw
    exact ⟨_, hexec, rfl, rfl, endCommand_ended _ _ _, hphase, hunbound, hhooks, hfault, hworld, ⟨rfl, rfl⟩, htime⟩
  · subst hrest
    obtain ⟨hexec, -, -, htime⟩ := hcloses hstage
    rw [hidle.advance_finishes hplan hfin] at hexec htime
    obtain ⟨-, -, hhooks, hbinding, hworld⟩ := hidle.untouched
    exact ⟨_, hexec, rfl, rfl, hidle.raise_faulted _ _ _ _, hhooks, hbinding, hworld, ⟨rfl, rfl⟩, htime⟩

/-- The sequencer is at the given place of a running command. -/
def RunsPlan (plan : List Prim) (stage : Nat) (s : State) : Prop :=
  s.phase ≠ .reserved ∧ s.busy = true ∧ s.plan = plan ∧ s.stage = stage

/-- A step there runs the first primitive's instruction. -/
theorem RunsPlan.step_eq {p : Prim} {ps : List Prim} {stage : Nat} {s : State} (h : RunsPlan (p :: ps) stage s) :
    step s = exec p.toInstr s := by
  obtain ⟨hphase, hbusy, hplan, -⟩ := h
  exact step_eq_exec_prim hphase hbusy hplan

/-- A command that goes on is at its new place. -/
theorem RunsPlan.wentOn {plan plan' : List Prim} {stage stage' : Nat} {s t : State} (h : RunsPlan plan stage s)
    (hon : WentOn plan' stage' s t) (huntouched : Untouched s t) : RunsPlan plan' stage' t := by
  obtain ⟨hphase, hbusy, -, -⟩ := h
  obtain ⟨hbusy', -, -, -, hplan', hstage', -⟩ := hon
  obtain ⟨hphase', -⟩ := huntouched
  exact ⟨hphase'.trans_ne hphase, hbusy'.trans hbusy, hplan', hstage'⟩

/-- The three steps of a Release of an acquired pin, with more to come (R83). -/
theorem run_release_acquired {r : Role} {s : State} {rest : List Prim} (h : RunsPlan (.rel r :: rest) 0 s)
    (hacq : (s.pin.get r).acq = true) (hrest : rest ≠ []) :
    ∃ t, run 3 s = .next t ∧ RunsPlan rest 0 t ∧ t.pin = s.pin.set r Pin.idle := by
  have ⟨_, _, hplan, hstage⟩ := h
  obtain ⟨hfirst, -⟩ := urelReleasesThePin r s rest hplan
  obtain ⟨s1, hexec1, -, hpin1, hon1, -, -, huntouched1, -⟩ := hfirst hacq hstage
  have h1 := h.wentOn hon1 huntouched1
  rw [hplan] at h1
  have ⟨_, _, hplan1, hstage1⟩ := h1
  obtain ⟨-, -, -, hsecond, -⟩ := urelReleasesThePin r s1 rest hplan1
  obtain ⟨s2, hexec2, -, hpin2, hon2, -, huntouched2, -⟩ := hsecond hstage1
  have h2 := h1.wentOn hon2 huntouched2
  rw [hplan1] at h2
  have ⟨_, _, hplan2, hstage2⟩ := h2
  obtain ⟨-, -, -, -, hthird, -⟩ := urelReleasesThePin r s2 rest hplan2
  obtain ⟨s3, hexec3, -, hpin3, hon3, -, huntouched3, -⟩ := hthird hstage2 hrest
  refine ⟨s3, ?_, h2.wentOn hon3 huntouched3, by rw [hpin3, hpin2, hpin1]; rfl⟩
  rw [run_succ (h.step_eq.trans hexec1), run_succ (h1.step_eq.trans hexec2), run_succ (h2.step_eq.trans hexec3)]
  rfl

/-- Settles O16: a Release of a pin that is not acquired moves on at once, and the pin is not acquired after a Release. -/
theorem releaseIsIdempotent : Obligations.ReleaseIsIdempotent := by
  refine ⟨fun r s q rest hplan hstage hacq => ?_, fun r s q rest hphase hbusy hplan hstage hacq => ?_⟩
  · obtain ⟨hexec, -⟩ := exec_urel (releaseStep_unacquired s.draw hacq hstage)
    rwa [advance_more (by exact hplan)] at hexec
  · obtain ⟨t, hrun, ht, hpin⟩ := run_release_acquired ⟨hphase, hbusy, hplan, hstage⟩ hacq (List.cons_ne_nil _ _)
    have hacq' : (t.pin.get r).acq = false := by rw [hpin, PerRole.get_set_self]; rfl
    have ⟨_, _, hplan', hstage'⟩ := ht
    obtain ⟨-, hagain, -⟩ := urelReleasesThePin r t (q :: rest) hplan'
    obtain ⟨u, hexec, -, hpin', ⟨-, -, -, -, hplan'', -⟩, -⟩ := hagain hacq' hstage' (List.cons_ne_nil q rest)
    refine ⟨t, u, hrun, ?_, hacq', hpin', hplan''⟩
    rw [run_add (j := 3) hrun 1, run_succ (ht.step_eq.trans hexec)]
    rfl

/-! ### UDLY (R84) -/

/-- A step of UDLY writes no latch, and its class's bound is its least duration. -/
theorem exec_udly {c : DelayClass} {s u : State} (h : delayStep c s = u) :
    exec (.udly c.code) s = .next (elapse s.draw u) ∧ SameLatches s (elapse s.draw u) ∧
      TimePassed (delayBound s.params c) s (elapse s.draw u) := by
  obtain ⟨hexec, htime, hlatch1, hlatch2⟩ := exec_primStep (p := .dly c) h
  exact ⟨hexec, ⟨hlatch1 (not_drives_dly c _), hlatch2 (not_drives_dly c _)⟩, htime⟩

/-- Settles O17: a delay writes TRACE and NOW, and then its command goes on, ends, or ends BRINGUP. -/
theorem udlyLastsAtLeastItsBound : Obligations.UdlyLastsAtLeastItsBound := by
  intro c s
  have hslept := (Touched.emit (.dly c) s).sleepBound (delayBound s.params c)
  refine ⟨fun q rest hplan => ?_, fun hplan hfin => ?_, fun hplan hfin => ?_⟩
  · obtain ⟨hexec, hlatches, htime⟩ := exec_udly (c := c) (s := s) rfl
    obtain ⟨hon, huntouched⟩ := hslept.advance_goesOn hplan (List.cons_ne_nil q rest) s.draw
    exact ⟨_, hexec, advance_trace _, advance_pin _, hlatches, huntouched, hon, htime⟩
  · obtain ⟨hexec, hlatches, htime⟩ := exec_udly (hslept.advance_finishes hplan hfin)
    exact ⟨_, hexec, rfl, rfl, hlatches, hslept.untouched, endCommand_ended _ _ _, htime⟩
  · obtain ⟨hexec, hlatches, htime⟩ := exec_udly (hslept.advance_finishes hplan hfin)
    obtain ⟨-, hfault, hhooks, hbinding, hworld⟩ := hslept.untouched
    exact ⟨_, hexec, rfl, rfl, hlatches, endCommand_ended _ _ _, rfl, hfault, hhooks, hbinding, hworld, htime⟩

end Sys2Proof.Machine

/-! # SEND and BL: acceptance, and what every step of theirs keeps -/

namespace Sys2Proof.Machine

/-! ### Acceptance that faults, and Enables(tgt) (R90) -/

/-- A command outside its phases raises IllegalPhase (R114). -/
theorem exec_illegalPhase {i : Instr} {s : State} (hcommand : isCommand i = true) (hidle : s.busy = false)
    (hlegal : legal i s.phase = false) :
    exec i s = .next (elapse s.draw (raise .illegalPhase none none (accepted (encode i) s))) := by
  rw [exec_command hcommand, accept_idle hidle, if_neg (by simp [hlegal])]

/-- The fault procedure in the acceptance step of the command word w (R116). -/
theorem raise_accepted_faulted (c : FaultCode) (role : Option Role) (id : Option Nat) (w : Word16) (d : Draw) (s : State) :
    Faulted c role id w s (elapse d (raise c role id (accepted w s))) :=
  ⟨endCommand_ended _ d _, rfl, rfl⟩

/-- A SEND whose Enables(tgt) is none faults in its acceptance step (R90). -/
theorem exec_send_unavailable {tgt : Target} (mode : Mode) (v : Byte) {s : State} (hidle : s.busy = false)
    (hphase : s.phase = .operational) (henables : enables tgt s.cfgNc = none) :
    exec (.send tgt mode v) s =
      .next (elapse s.draw (raise .targetUnavailable none none (accepted (encode (.send tgt mode v)) s))) := by
  have hlegal : legal (.send tgt mode v) s.phase = true := by simp [legal, hphase]
  rw [exec_command rfl, accept_idle hidle, if_pos hlegal]
  simp only [ruleOf, sendRule, accepted_cfgNc, henables]

/-- Settles O20: Enables(tgt) by target and count, the pulses of both enables, and the SEND to a second controller that is
not there. -/
theorem enableSelection : Obligations.EnableSelection := by
  refine ⟨fun _ => rfl, rfl, fun nc hnc => if_neg hnc, rfl, fun _ => rfl, fun mode v s hidle hphase hnc => ?_⟩
  exact ⟨_, exec_send_unavailable mode v hidle hphase (if_neg hnc), raise_accepted_faulted _ _ _ _ _ s, rfl, rfl,
    ⟨rfl, rfl⟩, ⟨rfl, rfl, rfl, rfl⟩, rfl, ⟨rfl, rfl, rfl⟩, rfl, rfl, rfl⟩

/-! ### BL (R95) -/

/-- BL is legal in Operational, where it begins with its program (R67, R95). -/
theorem exec_bl (b : Bool) {s : State} (hidle : s.busy = false) (hphase : s.phase = .operational) :
    exec (.bl b) s = .next (elapse s.draw
      (begin (if s.active.bl then [.wr .bl b] else []) .done s.draw (accepted (encode (.bl b)) s))) := by
  have hlegal : legal (.bl b) s.phase = true := by simp [legal, hphase]
  rw [exec_command rfl, accept_idle hidle, if_pos hlegal]
  rfl

/-- BL with an active backlight is the UWR of its line, as the one primitive of its command (R95). -/
theorem exec_bl_active (b : Bool) {s : State} (hidle : s.busy = false) (hphase : s.phase = .operational)
    (hactive : s.active.bl = true) :
    exec (.bl b) s = exec (.uwr .bl b) (starting [.wr .bl b] .done (accepted (encode (.bl b)) s)) := by
  rw [exec_bl b hidle hphase, if_pos hactive]
  rfl

/-- Settles O28: IllegalPhase, the one write with its success or failure, or a step without a write. -/
theorem blWritesWhenActive : Obligations.BlWritesWhenActive := by
  refine ⟨fun b s hidle hphase => ?_, fun b s hidle hphase => ?_⟩
  · exact ⟨_, exec_illegalPhase rfl hidle (by simp [legal, hphase]), raise_accepted_faulted _ _ _ _ _ s, rfl, rfl,
      ⟨rfl, rfl⟩, ⟨rfl, rfl, rfl, rfl⟩, rfl, ⟨rfl, rfl, rfl⟩, rfl, rfl, rfl⟩
  refine ⟨fun hactive hacq hok => ?_, fun hactive hacq hfail => ?_, fun hactive => ?_⟩
  · rw [exec_bl_active b hidle hphase hactive]
    obtain ⟨-, hends, -⟩ := uwrWritesTheLevel .bl b (starting [.wr .bl b] .done (accepted (encode (.bl b)) s))
    obtain ⟨t, hexec, htrace, hpin, hended, hlatch1, hlatch2, huntouched, htime⟩ := hends rfl rfl hacq hok
    exact ⟨t, hexec, hended, htrace, hpin, ⟨hlatch1 nofun, hlatch2 nofun⟩, huntouched, htime⟩
  · rw [exec_bl_active b hidle hphase hactive]
    obtain ⟨-, -, hfaults, -⟩ := uwrWritesTheLevel .bl b (starting [.wr .bl b] .done (accepted (encode (.bl b)) s))
    obtain ⟨t, hexec, htrace, hpin, hfaulted, hlatch1, hlatch2, hbinding, hhooks, hworld, htime⟩ := hfaults hacq hfail
    exact ⟨t, hexec, hfaulted, htrace, hpin, ⟨hlatch1 nofun, hlatch2 nofun⟩, hbinding, hhooks, hworld, htime⟩
  · have hexec := exec_bl b hidle hphase
    rw [if_neg (by simp [hactive])] at hexec
    exact ⟨_, hexec, endCommand_ended _ _ _, rfl, rfl, ⟨rfl, rfl⟩, .refl s, rfl, rfl, rfl⟩

/-! ### The enables at a write of RS or a data line (R92) -/

/-- The primitive writes RS or a data line. -/
def Prim.isSetup : Prim → Bool
  | .wr r _ => isDataOrRs r
  | .acq _ => false
  | .rel _ => false
  | .dly _ => false

/-- The primitive writes or releases RS or a data line. -/
def Prim.endsHold : Prim → Bool
  | .wr r _ => isDataOrRs r
  | .rel r => isDataOrRs r
  | .acq _ => false
  | .dly _ => false

theorem isSetupWord_encode (p : Prim) : isSetupWord (encode p.toInstr) = p.isSetup := by
  simp only [isSetupWord, decodeTrace_toInstr]
  cases p with
  | wr r b => cases r <;> rfl
  | acq _ | rel _ | dly _ => rfl

theorem isHoldEndWord_encode (p : Prim) : isHoldEndWord (encode p.toInstr) = p.endsHold := by
  simp only [isHoldEndWord, isSetupWord_encode, decodeTrace_toInstr]
  cases p with
  | rel r => cases r <;> rfl
  | acq _ | wr _ _ | dly _ => rfl

/-- A mode whose next primitive is a write is that of a transmitting command. -/
theorem InCommand.transmitting_of_wr {s : State} {r : Role} {b : Bool} {ps : List Prim} (h : InCommand s)
    (hplan : s.plan = .wr r b :: ps) : Transmitting s := by
  have hmem : .wr r b ∈ s.plan := hplan ▸ List.mem_cons_self
  cases h with
  | acquiring before after h =>
    rw [h.plan] at hmem
    obtain ⟨q, -, heq⟩ := List.mem_map.1 hmem
    cases heq
  | releasing h =>
    obtain ⟨q, heq, -⟩ := h.plan _ hmem
    cases heq
  | transmitting h => exact h

/-- What is safe for the enables starts with a write of RS or a data line under low enables only (R92). -/
theorem low_of_enablesSafe {en en2 : Bool} {r : Role} {b : Bool} {ps : List Prim} (hr : isDataOrRs r = true)
    (h : enablesSafe en en2 (.wr r b :: ps) = true) : en = false ∧ en2 = false := by
  cases r with
  | rs | d4 | d5 | d6 | d7 =>
    simp only [enablesSafe, Bool.and_eq_true, Bool.not_eq_true'] at h
    exact h.1
  | en | en2 | bl => cases hr

theorem eq_low_of_not_high {l : Option Bool} (hdefined : l ≠ none) (h : isHigh l = false) : l = some false := by
  revert l
  decide

/-- A transmitting command writes RS and the data lines while the active enables are low (R92). -/
theorem Transmitting.enables_low {s : State} {r : Role} {b : Bool} {ps : List Prim} (h : Transmitting s)
    (hplan : s.plan = .wr r b :: ps) (hr : isDataOrRs r = true) :
    (s.active.en = true → s.pin.en.lvl = some false) ∧ (s.active.en2 = true → s.pin.en2.lvl = some false) := by
  have hsafe : EnablesSafe s (.wr r b :: ps) := hplan ▸ h.enables
  obtain ⟨hen, hen2⟩ := low_of_enablesSafe hr hsafe
  exact ⟨fun hactive => eq_low_of_not_high (h.ready .en hactive).2 hen,
    fun hactive => eq_low_of_not_high (h.ready .en2 hactive).2 hen2⟩

/-- The word that a step emits is that of the primitive at hand in a mode: that of the running command, or the one in which
the accepted command starts. -/
theorem Invariant.emitting {s u : State} {w : Word16} {x : Nat} (h : Invariant s) (heffect : Effect s u)
    (htrace : u.trace = s.trace ++ [(w, x)]) :
    ∃ v p ps, InCommand v ∧ v.plan = p :: ps ∧ w = encode p.toInstr ∧ v.pin = s.pin ∧ v.active = s.active := by
  have hno (hsame : u.trace = s.trace) : False := by simp [hsame] at htrace
  cases heffect with
  | primitive p ps hbusy hplan =>
    exact ⟨s, p, ps, h.inCommand hbusy, hplan, word_of_append (primStep_effect p s.draw s).trace htrace, rfl, rfl⟩
  | idles hbusy hhost => exact (hno rfl).elim
  | accepts v rest i hbusy hhost hdecode hencode hdispatched =>
    subst hencode
    rcases hdispatched.trace with hsame | ⟨p, ps, f, hlegal, hprogram, hemit⟩
    · exact (hno hsame).elim
    · rcases (h.accepted hbusy (encode i) rest).inCommand hlegal hprogram with hmode | ⟨-, hplan, -⟩
      · exact ⟨_, p, ps, hmode, rfl, word_of_append (.inr hemit) htrace, rfl, rfl⟩
      · cases hplan
  | rejects v rest e hbusy hhost hdecode => exact (hno rfl).elim

/-- Settles O27: such a word is that of a write in a transmitting command, whose plan is safe for the enables. -/
theorem enablesAreLowAtDataWrites : Obligations.EnablesAreLowAtDataWrites := by
  rintro s t h hstep ⟨w, x, htrace, hsetup⟩
  obtain ⟨-, u, heffect, rfl⟩ := step_effect hstep
  obtain ⟨v, p, ps, hmode, hplan, rfl, hpin, hactive⟩ := h.emitting heffect htrace
  rw [isSetupWord_encode] at hsetup
  cases p with
  | wr r b =>
    obtain ⟨hen, hen2⟩ := (hmode.transmitting_of_wr hplan).enables_low hplan hsetup
    rw [hpin, hactive] at hen hen2
    exact ⟨fun hacq => hen (h.pins.active_of_acq (r := .en) hacq),
      fun hacq => hen2 (h.pins.active_of_acq (r := .en2) hacq)⟩
  | acq _ | rel _ | dly _ => cases hsetup

/-! ### What SEND and BL keep (R100) -/

/-- SEND or BL. -/
def IsSendOrBl (i : Instr) : Prop := (∃ tgt mode v, i = .send tgt mode v) ∨ ∃ b, i = .bl b

theorem IsSendOrBl.isCommand {i : Instr} (h : IsSendOrBl i) : isCommand i = true := by
  rcases h with ⟨tgt, mode, v, rfl⟩ | ⟨b, rfl⟩ <;> rfl

/-- After its last primitive a SEND or BL does nothing more (R89, R95). -/
theorem IsSendOrBl.fin_eq_done {i : Instr} (h : IsSendOrBl i) {s : State} {plan : List Prim} {f : Finish}
    (hprogram : programOf i s = some (plan, f)) : f = .done := by
  rcases h with ⟨tgt, mode, v, rfl⟩ | ⟨b, rfl⟩
  · obtain ⟨es, -, heq⟩ := Option.map_eq_some_iff.1 hprogram
    exact (congrArg Prod.snd heq).symm
  · exact (congrArg Prod.snd (Option.some.inj hprogram)).symm

/-- A mode runs the command in CUR. -/
theorem InCommand.runs {s : State} (h : InCommand s) : ∃ i, Runs i s := by
  cases h with
  | acquiring before after h => exact ⟨.acqall, rfl, h.cur⟩
  | releasing h =>
    rcases h.command with ⟨-, hcur, -⟩ | ⟨r, -, hcur, -⟩
    · exact ⟨.close, rfl, hcur⟩
    · exact ⟨.acqall, rfl, hcur⟩
  | transmitting h =>
    obtain ⟨i, hruns, -⟩ := h.command.transmits
    exact ⟨i, hruns⟩

/-- The mode of a SEND or BL transmits and finishes with nothing more to do. -/
theorem InCommand.transmitting_of_sendOrBl {s : State} {i : Instr} (h : InCommand s) (hi : IsSendOrBl i)
    (hcur : s.cur = some (encode i)) : Transmitting s ∧ s.fin = .done := by
  have hother {j : Instr} (hj : Machine.isCommand j = true) (hcurj : s.cur = some (encode j)) : IsSendOrBl j :=
    Runs.unique ⟨hi.isCommand, hcur⟩ ⟨hj, hcurj⟩ ▸ hi
  cases h with
  | acquiring before after h => simpa [IsSendOrBl] using hother (j := .acqall) rfl h.cur
  | releasing h =>
    rcases h.command with ⟨-, hcur, -⟩ | ⟨r, -, hcur, -⟩
    · simpa [IsSendOrBl] using hother (j := .close) rfl hcur
    · simpa [IsSendOrBl] using hother (j := .acqall) rfl hcur
  | transmitting h =>
    rcases h.command with ⟨-, hcur, -⟩ | ⟨hfin, -, -⟩
    · simpa [IsSendOrBl] using hother (j := .bringup) rfl hcur
    · exact ⟨h, hfin⟩

/-- R100's list: the binding, HOOKS and the pins but for their levels stay, PHASE changes to Failed with a fault only, and
only UWR and UDLY words are emitted. -/
def KeepsPinsAndBinding (s t : State) : Prop :=
  SameBinding s t ∧ t.hooks = s.hooks ∧ (∀ r, SameHold (s.pin.get r) (t.pin.get r)) ∧
    (t.phase = s.phase ∨ (t.phase = .failed ∧ t.fault.valid = true)) ∧
    (t.trace = s.trace ∨ ∃ w, t.trace = s.trace ++ [(w, s.now)] ∧ (isWriteWord w = true ∨ isDelayWord w = true))

theorem recordFault_valid (c : FaultCode) (role : Option Role) (id : Option Nat) (s : State) :
    (recordFault c role id s).valid = true := by
  unfold recordFault
  split
  · next hvalid => exact hvalid
  · rfl

/-- A fault leads to Failed, or stays in Released (R116). -/
theorem raise_phase_or (c : FaultCode) (role : Option Role) (id : Option Nat) (s : State) :
    (raise c role id s).phase = s.phase ∨
      ((raise c role id s).phase = .failed ∧ (raise c role id s).fault.valid = true) := by
  rcases raise_phase_cases c role id s with ⟨hs, ht⟩ | ⟨-, ht⟩
  · exact .inl (ht.trans hs.symm)
  · exact .inr ⟨ht, recordFault_valid c role id s⟩

theorem raise_keepsPinsAndBinding (c : FaultCode) (role : Option Role) (id : Option Nat) (s : State) :
    KeepsPinsAndBinding s (raise c role id s) :=
  ⟨⟨rfl, rfl, rfl, rfl⟩, rfl, fun _ => ⟨rfl, rfl, rfl⟩, raise_phase_or c role id s, .inl rfl⟩

/-- A primitive of a command with nothing more to do leaves HOOKS, the binding and, but for a fault, PHASE. -/
theorem PrimEffect.keeps_of_done {p : Prim} {s t : State} (h : PrimEffect p s t) (hfin : s.fin = .done) :
    SameBinding s t ∧ t.hooks = s.hooks ∧ (t.phase = s.phase ∨ (t.phase = .failed ∧ t.fault.valid = true)) := by
  cases h with
  | goesOn plan fin stage htouched =>
    obtain ⟨hphase, -, hhooks, hbinding, -⟩ := htouched.untouched
    exact ⟨hbinding, hhooks, .inl hphase⟩
  | finishes htouched =>
    obtain ⟨hphase, -, hhooks, hbinding, -⟩ := htouched.untouched
    rw [hfin]
    exact ⟨hbinding, hhooks, .inl hphase⟩
  | @faults u c role id htouched hrel =>
    obtain ⟨hphase, -, hhooks, hbinding, -⟩ := htouched.untouched
    exact ⟨hbinding, hhooks, hphase ▸ raise_phase_or c role id u⟩

/-- A transmission's primitive changes levels only. -/
theorem Transmitting.primStep_sameHold {s : State} {p : Prim} {ps : List Prim} (h : Transmitting s)
    (hplan : s.plan = p :: ps) (d : Draw) (q : Role) : SameHold (s.pin.get q) ((primStep p d s).pin.get q) := by
  have hp := h.plan p (hplan ▸ List.mem_cons_self)
  cases p with
  | wr r b =>
    obtain ⟨hothers, hhold⟩ := writeStep_pin r b d s
    show SameHold _ ((Machine.writeStep r b d s).pin.get q)
    by_cases hq : q = r
    · exact hq ▸ hhold
    · rw [hothers q hq]
      exact ⟨rfl, rfl, rfl⟩
  | dly c =>
    rw [show (primStep (.dly c) d s).pin = s.pin from advance_pin _]
    exact ⟨rfl, rfl, rfl⟩
  | acq _ | rel _ => cases hp

/-- A transmission's primitive emits a UWR or a UDLY word (R64). -/
theorem word_of_isTransmission {active : PerRole Bool} {p : Prim} (h : isTransmission active p = true) :
    isWriteWord (encode p.toInstr) = true ∨ isDelayWord (encode p.toInstr) = true := by
  cases p with
  | wr r b => left; cases r <;> cases b <;> rfl
  | dly c => right; cases c <;> rfl
  | acq _ | rel _ => cases h

/-- A primitive step of a SEND or BL keeps R100's list. -/
theorem InCommand.primStep_keeps {s : State} {i : Instr} {p : Prim} {ps : List Prim} (h : InCommand s)
    (hi : IsSendOrBl i) (hcur : s.cur = some (encode i)) (hplan : s.plan = p :: ps) (d : Draw) :
    KeepsPinsAndBinding s (Machine.primStep p d s) := by
  obtain ⟨hmode, hfin⟩ := h.transmitting_of_sendOrBl hi hcur
  have heffect := primStep_effect p d s
  obtain ⟨hbinding, hhooks, hphase⟩ := heffect.keeps_of_done hfin
  have hword := word_of_isTransmission (hmode.plan p (hplan ▸ List.mem_cons_self))
  exact ⟨hbinding, hhooks, hmode.primStep_sameHold hplan d, hphase, heffect.trace.imp_right fun htrace => ⟨_, htrace, hword⟩⟩

/-- The acceptance of a SEND or BL keeps R100's list. -/
theorem Accepted.dispatched_keeps {i : Instr} {d : Draw} {s t : State} (h : Accepted (encode i) s) (hi : IsSendOrBl i)
    (ht : Dispatched i d s t) : KeepsPinsAndBinding s t := by
  cases ht with
  | runs p ps f hlegal hprogram =>
    rcases h.inCommand hlegal hprogram with hmode | ⟨-, hplan, -⟩
    · exact hmode.primStep_keeps hi h.cur rfl d
    · cases hplan
  | finishes f hlegal hprogram =>
    obtain rfl := hi.fin_eq_done hprogram
    exact ⟨⟨rfl, rfl, rfl, rfl⟩, rfl, fun _ => ⟨rfl, rfl, rfl⟩, .inl rfl, .inl rfl⟩
  | binds hbind hphase halias => simp [IsSendOrBl, hbind] at hi
  | starts hstart hphase => simp [IsSendOrBl, hstart] at hi
  | faults c role id hclose hstart => exact raise_keepsPinsAndBinding c role id s

/-- Settles O29: a step of SEND or BL is a primitive of its mode, or its acceptance. -/
theorem sendAndBlKeepPinsAndBinding : Obligations.SendAndBlKeepPinsAndBinding := by
  intro s t h hstep hcommand
  obtain ⟨i, hi, hstepCommand⟩ : ∃ i, IsSendOrBl i ∧ stepCommand s = some i := by
    rcases hcommand with ⟨tgt, mode, v, hs⟩ | ⟨b, hs⟩
    · exact ⟨_, .inl ⟨tgt, mode, v, rfl⟩, hs⟩
    · exact ⟨_, .inr ⟨b, rfl⟩, hs⟩
  obtain ⟨-, u, heffect, rfl⟩ := step_effect hstep
  show KeepsPinsAndBinding s u
  cases heffect with
  | primitive p ps hbusy hplan =>
    have hmode := h.inCommand hbusy
    obtain ⟨j, hj, hcur⟩ := hmode.runs
    obtain rfl : j = i := Option.some.inj ((stepCommand_of_cur hbusy hj hcur).symm.trans hstepCommand)
    exact hmode.primStep_keeps hi hcur hplan s.draw
  | idles hbusy hhost => exact ⟨⟨rfl, rfl, rfl, rfl⟩, rfl, fun _ => ⟨rfl, rfl, rfl⟩, .inl rfl, .inl rfl⟩
  | accepts w rest j hbusy hhost hdecode hword hdispatched =>
    obtain rfl : j = i := Option.some.inj ((stepCommand_of_host hbusy hhost hdecode).symm.trans hstepCommand)
    subst hword
    exact (h.accepted hbusy (encode j) rest).dispatched_keeps hi hdispatched
  | rejects w rest e hbusy hhost hdecode => exact raise_keepsPinsAndBinding _ _ _ (accepted w { s with host := rest })

end Sys2Proof.Machine

/-! # A transmission whose writes succeed

`transmit` is what a sequence of writes and delays does to a state when every write succeeds; `run_transmit` ties it to the
steps of the sequencer, and `exec_send_run` to a SEND. What a transmission leaves of the levels, TRACE and NOW is said by
functions of its primitives. -/

namespace Sys2Proof.Machine

/-! ### One primitive -/

/-- What a write that succeeds, or a delay, does before its command goes on. -/
def written (p : Prim) (d : Draw) (s : State) : State :=
  match p with
  | .wr r b => setLvl r (some b) (observe r (writeEdge (s.pin.get r).lvl b true) d (emit (encode (.uwr r b)) s))
  | .dly c => sleepBound (delayBound s.params c) (emit (encode (.udly c.code)) s)
  | .acq _ => s
  | .rel _ => s

/-- The primitive and its duration. -/
def performed (p : Prim) (s : State) : State := elapse s.draw (written p s.draw s)

/-- A sequence of primitives. -/
def transmit (ps : List Prim) (s : State) : State := ps.foldl (fun u p => performed p u) s

/-- The primitive is a delay, or a write of an acquired pin. -/
def Writable (s : State) : Prim → Prop
  | .wr r _ => (s.pin.get r).acq = true
  | .dly _ => True
  | .acq _ => False
  | .rel _ => False

theorem primStep_eq_advance_written {p : Prim} {d : Draw} {s : State} (h : Writable s p) (hok : d.writeOk = true) :
    primStep p d s = advance (written p d s) := by
  cases p with
  | wr r b => exact writeStep_ok b h hok
  | dly c => rfl
  | acq _ | rel _ => cases h

/-- A transmission writes PIN, TRACE, NOW, LATCH and the draws. -/
theorem performed_eq (p : Prim) (s : State) : ∃ pin trace now l1 l2 script ix, performed p s =
    { s with pin := pin, trace := trace, now := now, latch1 := l1, latch2 := l2, script := script, drawIx := ix } := by
  cases p with
  | wr r b =>
    obtain ⟨l1, l2, h⟩ := observe_eq_latches r (writeEdge (s.pin.get r).lvl b true) s.draw (emit (encode (.uwr r b)) s)
    rw [performed, written, h]
    exact ⟨_, _, _, _, _, _, _, rfl⟩
  | dly c => exact ⟨_, _, _, _, _, _, _, rfl⟩
  | acq _ | rel _ => exact ⟨_, _, _, _, _, _, _, rfl⟩

theorem transmit_eq (ps : List Prim) (s : State) : ∃ pin trace now l1 l2 script ix, transmit ps s =
    { s with pin := pin, trace := trace, now := now, latch1 := l1, latch2 := l2, script := script, drawIx := ix } := by
  induction ps generalizing s with
  | nil => exact ⟨_, _, _, _, _, _, _, rfl⟩
  | cons p ps ih =>
    obtain ⟨pin, trace, now, l1, l2, script, ix, h⟩ := performed_eq p s
    obtain ⟨pin', trace', now', l1', l2', script', ix', h'⟩ := ih (performed p s)
    exact ⟨pin', trace', now', l1', l2', script', ix', h'.trans (by rw [h])⟩

theorem transmit_cons (p : Prim) (ps : List Prim) (s : State) : transmit (p :: ps) s = transmit ps (performed p s) := rfl

theorem transmit_append (ps qs : List Prim) (s : State) : transmit (ps ++ qs) s = transmit qs (transmit ps s) :=
  List.foldl_append

@[simp] theorem performed_params (p : Prim) (s : State) : (performed p s).params = s.params := by
  obtain ⟨_, _, _, _, _, _, _, h⟩ := performed_eq p s
  rw [h]

@[simp] theorem performed_fin (p : Prim) (s : State) : (performed p s).fin = s.fin := by
  obtain ⟨_, _, _, _, _, _, _, h⟩ := performed_eq p s
  rw [h]

/-! ### The sequencer's steps -/

/-- The state with the primitives `plan` to come and UPC = n. -/
def placed (plan : List Prim) (n : Nat) (s : State) : State := { s with plan := plan, stage := 0, upc := n }

theorem observe_placed (plan : List Prim) (n : Nat) (r : Role) (e : Edge) (d : Draw) (s : State) :
    observe r e d (placed plan n s) = placed plan n (observe r e d s) := by
  have happend (rec : LatchRec) : appendLatch r rec (placed plan n s) = placed plan n (appendLatch r rec s) := by
    cases r <;> rfl
  cases e with
  | none => rfl
  | falling => exact happend _
  | undefined =>
    cases hlatches : d.latches with
    | true =>
      simp only [observe, hlatches]
      exact happend _
    | false => simp [observe, hlatches]

/-- The position in the command makes no difference to a primitive. -/
theorem performed_placed (p : Prim) (plan : List Prim) (n : Nat) (s : State) :
    performed p (placed plan n s) = placed plan n (performed p s) := by
  cases p with
  | wr r b =>
    have hobserve := observe_placed plan n r (writeEdge (s.pin.get r).lvl b true) s.draw (emit (encode (.uwr r b)) s)
    exact congrArg (fun u => elapse s.draw (setLvl r (some b) u)) hobserve
  | dly c => rfl
  | acq _ | rel _ => rfl

theorem elapse_finish (d : Draw) (f : Finish) (s : State) : elapse d (finish f s) = finish f (elapse d s) := by
  cases f <;> rfl

theorem elapse_advance (d : Draw) (s : State) : elapse d (advance s) = advance (elapse d s) := by
  unfold advance continueWith
  rw [elapse_plan]
  cases s.plan.tail with
  | nil => exact elapse_finish d s.fin s
  | cons q qs => rfl

/-- The block runs a command, can write what `ps` writes, and its next writes succeed. -/
structure CanTransmit (ps : List Prim) (s : State) : Prop where
  phase    : s.phase ≠ .reserved
  busy     : s.busy = true
  writable : ∀ p ∈ ps, Writable s p
  succeed  : WritesSucceed ps.length s

theorem CanTransmit.step {p : Prim} {ps : List Prim} {s : State} (h : CanTransmit (p :: ps) s) (n : Nat) :
    step (placed (p :: ps) n s) = .next (advance (placed (p :: ps) n (performed p s))) := by
  have hok : s.draw.writeOk = true := h.succeed 0 (Nat.zero_lt_succ _)
  have hstep := step_eq_exec_prim (s := placed (p :: ps) n s) h.phase h.busy rfl
  have hp : Writable (placed (p :: ps) n s) p := by
    have := h.writable p List.mem_cons_self
    cases p <;> exact this
  have hwritten := primStep_eq_advance_written hp hok
  rw [hstep, exec_prim, ← performed_placed]
  exact congrArg _ ((congrArg (elapse s.draw) hwritten).trans (elapse_advance s.draw _))

/-- The level that a transmission leaves on the line of r. -/
def levelAfter (r : Role) (l : Option Bool) (ps : List Prim) : Option Bool :=
  ps.foldl (fun l p => match p with
    | .wr q b => if r = q then some b else l
    | .dly _ => l
    | .acq _ => l
    | .rel _ => l) l

theorem performed_pin (p : Prim) (s : State) (r : Role) :
    (performed p s).pin.get r = { s.pin.get r with lvl := levelAfter r (s.pin.get r).lvl [p] } := by
  cases p with
  | wr q b =>
    simp only [performed, written, elapse_pin, setLvl_pin, observe_pin, emit_pin, PerRole.get_set, levelAfter,
      List.foldl_cons, List.foldl_nil]
    split
    · next h => rw [h]
    · rfl
  | dly _ | acq _ | rel _ => rfl

/-- A transmission changes levels only, each to the last one written. -/
theorem transmit_pin (ps : List Prim) (s : State) (r : Role) :
    (transmit ps s).pin.get r = { s.pin.get r with lvl := levelAfter r (s.pin.get r).lvl ps } := by
  induction ps generalizing s with
  | nil => rfl
  | cons p ps ih =>
    rw [transmit_cons, ih, performed_pin]
    rfl

theorem performed_drawAt (p : Prim) (s : State) (k : Nat) : (performed p s).drawAt k = s.drawAt (k + 1) := by
  rw [performed, drawAt_elapse]
  cases p with
  | wr r b => exact drawAt_congr (by simp [written]) (by simp [written]) _
  | dly _ | acq _ | rel _ => rfl

theorem CanTransmit.tail {p : Prim} {ps : List Prim} {s : State} (h : CanTransmit (p :: ps) s) :
    CanTransmit ps (performed p s) := by
  obtain ⟨pin, trace, now, l1, l2, script, ix, hs⟩ := performed_eq p s
  refine ⟨by rw [hs]; exact h.phase, by rw [hs]; exact h.busy, fun q hq => ?_, fun k hk => ?_⟩
  · have hold := h.writable q (List.mem_cons_of_mem _ hq)
    cases q with
    | wr r b =>
      show ((performed p s).pin.get r).acq = true
      rw [performed_pin]
      exact hold
    | dly _ | acq _ | rel _ => exact hold
  · rw [performed_drawAt]
    exact h.succeed (k + 1) (Nat.succ_lt_succ hk)

/-- The steps of a transmission: each performs its primitive and goes on, and the last one finishes the command. -/
theorem run_transmit {ps : List Prim} {s : State} (h : CanTransmit ps s) (hps : ps ≠ []) (n : Nat) :
    (∀ k, k < ps.length → run k (placed ps n s) = .next (placed (ps.drop k) (n + k) (transmit (ps.take k) s))) ∧
      run ps.length (placed ps n s) = .next (finish s.fin (transmit ps s)) := by
  induction ps generalizing s n with
  | nil => exact absurd rfl hps
  | cons p ps ih =>
    have hstep := h.step n
    cases ps with
    | nil =>
      refine ⟨fun k hk => ?_, ?_⟩
      · obtain rfl : k = 0 := by simpa using hk
        rfl
      · obtain ⟨pin, trace, now, l1, l2, script, ix, hs⟩ := performed_eq p s
        rw [advance_last rfl] at hstep
        rw [List.length_singleton, run_succ hstep]
        show Host.Outcome.next _ = .next (finish s.fin (performed p s))
        rw [hs]
        exact congrArg _ (finish_position s.fin s.fin [p] 0 n _)
    | cons q qs =>
      obtain ⟨hgoes, hends⟩ := ih h.tail (List.cons_ne_nil q qs) (n + 1)
      rw [advance_more rfl] at hstep
      refine ⟨fun k hk => ?_, ?_⟩
      · cases k with
        | zero => rfl
        | succ k =>
          rw [run_succ hstep]
          refine (hgoes k (Nat.lt_of_succ_lt_succ hk)).trans ?_
          rw [show n + (k + 1) = n + 1 + k by omega]
          rfl
      · rw [List.length_cons, run_succ hstep]
        rw [performed_fin] at hends
        exact hends

/-! ### TRACE and NOW -/

/-- The words that a transmission emits, with their stamps. -/
def stamped : List Prim → State → List (Word16 × Nat)
  | [], _ => []
  | p :: ps, s => (encode p.toInstr, s.now) :: stamped ps (performed p s)

theorem stamped_words (ps : List Prim) (s : State) : (stamped ps s).map Prod.fst = wordsOf ps := by
  induction ps generalizing s with
  | nil => rfl
  | cons p ps ih =>
    rw [stamped, List.map_cons, ih]
    rfl

theorem performed_trace {p : Prim} {s : State} (h : Writable s p) :
    (performed p s).trace = s.trace ++ [(encode p.toInstr, s.now)] := by
  cases p with
  | wr r b => simp [performed, written, Prim.toInstr]
  | dly c => rfl
  | acq _ | rel _ => cases h

theorem transmit_trace {ps : List Prim} {s : State} (h : CanTransmit ps s) :
    (transmit ps s).trace = s.trace ++ stamped ps s := by
  induction ps generalizing s with
  | nil => simp [transmit, stamped]
  | cons p ps ih =>
    rw [transmit_cons, ih h.tail, performed_trace (h.writable p List.mem_cons_self), stamped, List.append_assoc]
    rfl

theorem performed_now (p : Prim) (s : State) :
    (performed p s).now = s.now + primBound s.params p + s.draw.dur := by
  cases p with
  | wr r b => simp [performed, written, primBound]
  | dly _ | acq _ | rel _ => rfl

/-- A transmission lasts at least the sum of its delays (R56). -/
theorem le_transmit_now (ps : List Prim) (s : State) :
    s.now + (ps.map (primBound s.params)).sum ≤ (transmit ps s).now := by
  induction ps generalizing s with
  | nil => exact le_rfl
  | cons p ps ih =>
    have hrest := ih (performed p s)
    rw [performed_params, performed_now] at hrest
    rw [transmit_cons, List.map_cons, List.sum_cons]
    omega

end Sys2Proof.Machine

/-! # A SEND that no fault ends (R89, R91, R94, R96, R97, R98)

A SEND runs SendSeq as one transmission, so its lines, its words and its latches are those of the sequence. -/

namespace Sys2Proof.Machine

/-! ### The run of a SEND -/

theorem CanTransmit.take {ps : List Prim} {s : State} (h : CanTransmit ps s) (k : Nat) : CanTransmit (ps.take k) s where
  phase := h.phase
  busy := h.busy
  writable := fun p hp => h.writable p (List.mem_of_mem_take hp)
  succeed := fun j hj => h.succeed j (lt_of_lt_of_le hj (List.length_take_le' k ps))

/-- The enables that a target selects are EN, EN and EN2, or EN2 (R90). -/
def EnableChoice (es : List Role) : Prop := es = [.en] ∨ es = [.en, .en2] ∨ es = [.en2]

theorem enableChoice_of_enables {tgt : Target} {nc : Option Controllers} {es : List Role} (h : enables tgt nc = some es) :
    EnableChoice es := by
  rcases enables_cases h with hes | ⟨-, hes⟩
  · exact .inl hes
  · exact .inr hes

theorem EnableChoice.isEnable {es : List Role} (h : EnableChoice es) {e : Role} (he : e ∈ es) : IsEnable e := by
  rcases h with rfl | rfl | rfl
  · exact .inl (List.mem_singleton.1 he)
  · simpa [IsEnable] using he
  · exact .inr (List.mem_singleton.1 he)

theorem length_sendSeq (es : List Role) (mode : Mode) (v : Byte) : (sendSeq es mode v).length = 25 + 4 * es.length := by
  simp only [sendSeq, sendNibble, dataWrites, List.length_cons, List.length_append, List.length_map, List.length_nil]
  omega

/-- A nibble's transmission writes its enables and the data lines. -/
theorem of_mem_sendNibble {es : List Role} {n : Nibble} {r : Role} {b : Bool} (h : .wr r b ∈ sendNibble es n) :
    r ∈ es ∨ (isDataOrRs r = true ∧ r ≠ .rs) := by
  have hdata (m : Nibble) (h : .wr r b ∈ dataWrites m) : isDataOrRs r = true ∧ r ≠ .rs := by
    cases r <;> simp [dataWrites, isDataOrRs] at h ⊢
  simp only [sendNibble, List.mem_append, List.mem_map, List.mem_singleton, Prim.wr.injEq, reduceCtorEq, or_false] at h
  rcases h with ((hd | hd) | ⟨e, he, rfl, -⟩) | ⟨e, he, rfl, -⟩
  · exact .inr (hdata _ hd)
  · exact .inr (hdata _ hd)
  · exact .inl he
  · exact .inl he

theorem exists_mem_sendNibble {es : List Role} {a b : Nibble} {p : Prim} (h : p ∈ sendNibble es a ++ sendNibble es b) :
    ∃ n, p ∈ sendNibble es n :=
  (List.mem_append.1 h).elim (fun h => ⟨a, h⟩) fun h => ⟨b, h⟩

theorem EnableChoice.length_pos {es : List Role} (h : EnableChoice es) : 0 < es.length := by
  rcases h with rfl | rfl | rfl <;> decide

/-- The state in which an accepted command w starts the transmission `ps` and has nothing more to do after it. -/
def begun (w : Word16) (ps : List Prim) (s : State) : State := starting ps .done (accepted w s)

theorem ReadyToSend.canTransmit {es : List Role} {s : State} (h : ReadyToSend es s)
    (hok : WritesSucceed (25 + 4 * es.length) s) (w : Word16) (mode : Mode) (v : Byte) :
    CanTransmit (sendSeq es mode v) (begun w (sendSeq es mode v) s) := by
  obtain ⟨-, hphase, hrs, hd4, hd5, hd6, hd7, hes⟩ := h
  have hwrite {r : Role} (hr : r ∈ es ∨ isDataOrRs r = true) : (s.pin.get r).acq = true := by
    rcases hr with hr | hr
    · exact (hes r hr).1
    · cases r with
      | rs => exact hrs
      | d4 => exact hd4
      | d5 => exact hd5
      | d6 => exact hd6
      | d7 => exact hd7
      | en | en2 | bl => cases hr
  refine ⟨?_, rfl, fun p hp => ?_, ?_⟩
  · show s.phase ≠ .reserved
    rw [hphase]
    nofun
  · rcases List.mem_cons.1 hp with rfl | hp
    · exact hrs
    · obtain ⟨n, hp⟩ := exists_mem_sendNibble hp
      cases p with
      | wr r b => exact hwrite ((of_mem_sendNibble hp).imp_right And.left)
      | dly c => trivial
      | acq _ | rel _ => simp [sendNibble, dataWrites] at hp
  · rw [length_sendSeq]
    exact hok

/-- The steps of a SEND: each performs the next primitive of its sequence, and the last ends the command (R89, R91). -/
theorem exec_send_run {tgt : Target} {mode : Mode} {v : Byte} {es : List Role} {s : State} (hready : ReadyToSend es s)
    (henables : enables tgt s.cfgNc = some es) (hok : WritesSucceed (25 + 4 * es.length) s) :
    ∃ ps w t₁, ps = sendSeq es mode v ∧ CanTransmit ps (begun w ps s) ∧ exec (.send tgt mode v) s = .next t₁ ∧
      (∀ k, k < 24 + 4 * es.length →
        run k t₁ = .next (placed (ps.drop (k + 1)) (k + 1) (transmit (ps.take (k + 1)) (begun w ps s)))) ∧
      run (24 + 4 * es.length) t₁ = .next (endCommand respOk (transmit ps (begun w ps s))) := by
  have hcan := hready.canTransmit hok (encode (.send tgt mode v)) mode v
  have hlength := length_sendSeq es mode v
  obtain ⟨hidle, hphase, -⟩ := hready
  have hexec : exec (.send tgt mode v) s = step (begun (encode (.send tgt mode v)) (sendSeq es mode v) s) := by
    rw [step_eq_exec_prim hcan.phase hcan.busy rfl, exec_prim]
    exact exec_send hidle hphase henables
  have hstep : step (begun (encode (.send tgt mode v)) (sendSeq es mode v) s) = _ := hcan.step 0
  obtain ⟨hgoes, hends⟩ := run_transmit hcan (List.cons_ne_nil _ _) 0
  refine ⟨_, _, _, rfl, hcan, hexec.trans hstep, fun k hk => ?_, ?_⟩
  · rw [← run_succ hstep k]
    refine (hgoes (k + 1) (by omega)).trans ?_
    rw [Nat.zero_add]
  · rw [← run_succ hstep, show 24 + 4 * es.length + 1 = (sendSeq es mode v).length by omega]
    exact hends

/-! ### Words of a transmission -/

/-- The primitive is a write. -/
def Prim.isWrite : Prim → Bool
  | .wr _ _ => true
  | .acq _ => false
  | .rel _ => false
  | .dly _ => false

/-- The primitive is a delay. -/
def Prim.isDelay : Prim → Bool
  | .dly _ => true
  | .acq _ => false
  | .wr _ _ => false
  | .rel _ => false

theorem isWriteWord_encode (p : Prim) : isWriteWord (encode p.toInstr) = p.isWrite := by
  cases p with
  | acq r | rel r => cases r <;> rfl
  | wr r b => cases r <;> cases b <;> rfl
  | dly c => cases c <;> rfl

theorem isDelayWord_encode (p : Prim) : isDelayWord (encode p.toInstr) = p.isDelay := by
  cases p with
  | acq r | rel r => cases r <;> rfl
  | wr r b => cases r <;> cases b <;> rfl
  | dly c => cases c <;> rfl

theorem writesSeen_stamped (ps : List Prim) (s : State) : writesSeen (stamped ps s) = wordsOf (ps.filter Prim.isWrite) := by
  rw [writesSeen, stamped_words, wordsOf, wordsOf, List.filter_map]
  exact congrArg _ (congrArg (ps.filter ·) (funext isWriteWord_encode))

theorem delaysSeen_stamped (ps : List Prim) (s : State) : delaysSeen (stamped ps s) = wordsOf (ps.filter Prim.isDelay) := by
  rw [delaysSeen, stamped_words, wordsOf, wordsOf, List.filter_map]
  exact congrArg _ (congrArg (ps.filter ·) (funext isDelayWord_encode))

/-- The writes, the delays and the least duration of SendSeq (R94). -/
theorem sendSeq_counts {es : List Role} (h : EnableChoice es) (mode : Mode) (v : Byte) (params : Params) :
    ((sendSeq es mode v).filter Prim.isWrite).length = 1 + 2 * (8 + 2 * es.length) ∧
      wordsOf ((sendSeq es mode v).filter Prim.isDelay) = List.replicate 8 0xB000 ∧
      ((sendSeq es mode v).map (primBound params)).sum = 8 * params.tHold := by
  have hsum (t : Nat) : t + (t + (t + (t + (t + (t + (t + t)))))) = 8 * t := by omega
  rcases h with rfl | rfl | rfl <;>
    exact ⟨rfl, rfl, by simp [sendSeq, sendNibble, dataWrites, primBound, delayBound, hsum]⟩

theorem endCommand_idle (b : Byte) (s : State) : Ended b (endCommand b s) := ⟨rfl, rfl, rfl, rfl, rfl, rfl, rfl⟩

theorem transmit_untouched (ps : List Prim) (s : State) : Untouched s (transmit ps s) := by
  obtain ⟨pin, trace, now, l1, l2, script, ix, h⟩ := transmit_eq ps s
  rw [h]
  exact .refl s

theorem transmit_busy (ps : List Prim) (s : State) : (transmit ps s).busy = s.busy := by
  obtain ⟨pin, trace, now, l1, l2, script, ix, h⟩ := transmit_eq ps s
  rw [h]

/-- Settles O22: the steps, words and delays are those of SendSeq. -/
theorem sendCountsAndLength : Obligations.SendCountsAndLength := by
  intro tgt mode v es s hready henables hok
  obtain ⟨ps, w, t₁, hps, hcan, hexec, hgoes, hends⟩ := exec_send_run (mode := mode) (v := v) hready henables hok
  have hchoice := enableChoice_of_enables henables
  have hlength := length_sendSeq es mode v
  obtain ⟨hwrites, hdelays, hbounds⟩ := sendSeq_counts hchoice mode v s.params
  rw [← hps] at hlength hwrites hdelays hbounds
  have hpositive := hchoice.length_pos
  refine ⟨t₁, _, hexec, hends, endCommand_idle _ _, ?_, fun k hk => ⟨_, hgoes k hk, ?_, rfl⟩,
    ⟨stamped ps (begun w ps s), transmit_trace hcan, ?_, ?_, ?_⟩, ?_⟩
  · exact transmit_untouched ps (begun w ps s)
  · exact (transmit_busy (ps.take (k + 1)) (begun w ps s))
  · rw [writesSeen_stamped, wordsOf, List.length_map, hwrites]
  · rw [delaysSeen_stamped, hdelays]
  · have hwords := congrArg List.length (stamped_words ps (begun w ps s))
    rw [List.length_map, wordsOf, List.length_map] at hwords
    omega
  · rw [← hbounds]
    exact le_transmit_now ps (begun w ps s)

/-! ### Lines of a transmission -/

theorem levelAfter_append (r : Role) (l : Option Bool) (ps qs : List Prim) :
    levelAfter r l (ps ++ qs) = levelAfter r (levelAfter r l ps) qs := List.foldl_append

/-- A line keeps its level when it is not written. -/
theorem levelAfter_of_not_written {r : Role} {ps : List Prim} (h : ∀ b, .wr r b ∉ ps) (l : Option Bool) :
    levelAfter r l ps = l := by
  induction ps with
  | nil => rfl
  | cons p ps ih =>
    have hps : levelAfter r l ps = l := ih fun b hb => h b (List.mem_cons_of_mem _ hb)
    cases p with
    | wr q b =>
      have hq : r ≠ q := by
        rintro rfl
        exact h b List.mem_cons_self
      simpa [levelAfter, hq] using hps
    | dly _ | acq _ | rel _ => exact hps

/-- A sequence leaves the nibble n on the data lines, whatever stood there (R46). -/
structure LeavesNibble (ps : List Prim) (n : Nibble) : Prop where
  d7 : ∀ l, levelAfter .d7 l ps = some (n.getLsbD 3)
  d6 : ∀ l, levelAfter .d6 l ps = some (n.getLsbD 2)
  d5 : ∀ l, levelAfter .d5 l ps = some (n.getLsbD 1)
  d4 : ∀ l, levelAfter .d4 l ps = some (n.getLsbD 0)

theorem toNat_of_bits (n : Nibble) :
    8 * (n.getLsbD 3).toNat + 4 * (n.getLsbD 2).toNat + 2 * (n.getLsbD 1).toNat + (n.getLsbD 0).toNat = n.toNat := by
  revert n
  decide

theorem LeavesNibble.dataLines {ps : List Prim} {n : Nibble} (h : LeavesNibble ps n) {s u : State}
    (hu : u.pin = (transmit ps s).pin) : dataLines u = some n.toNat := by
  have hlevel (r : Role) : (u.pin.get r).lvl = levelAfter r (s.pin.get r).lvl ps := by rw [hu, transmit_pin]
  have h7 := (hlevel .d7).trans (h.d7 _)
  have h6 := (hlevel .d6).trans (h.d6 _)
  have h5 := (hlevel .d5).trans (h.d5 _)
  have h4 := (hlevel .d4).trans (h.d4 _)
  simp only [PerRole.get] at h7 h6 h5 h4
  simp only [Machine.dataLines, h7, h6, h5, h4, toNat_of_bits]

theorem toNat_highNibble (v : Byte) : (highNibble v).toNat = v.toNat / 16 := by
  simp only [highNibble, BitVec.extractLsb'_toNat, Nat.shiftRight_eq_div_pow]
  omega

theorem toNat_lowNibble (v : Byte) : (lowNibble v).toNat = v.toNat % 16 := by
  simp [lowNibble]

theorem leavesNibble_append (ps : List Prim) {qs : List Prim} {n : Nibble} (h : LeavesNibble qs n) :
    LeavesNibble (ps ++ qs) n where
  d7 l := (levelAfter_append .d7 l ps qs).trans (h.d7 _)
  d6 l := (levelAfter_append .d6 l ps qs).trans (h.d6 _)
  d5 l := (levelAfter_append .d5 l ps qs).trans (h.d5 _)
  d4 l := (levelAfter_append .d4 l ps qs).trans (h.d4 _)

theorem leavesNibble_dataWrites (ps : List Prim) (n : Nibble) : LeavesNibble (ps ++ dataWrites n) n :=
  leavesNibble_append ps ⟨fun _ => rfl, fun _ => rfl, fun _ => rfl, fun _ => rfl⟩

/-- The data lines after the clear and drive steps of SendSeq, and at its end (R91). -/
theorem sendSeq_leavesNibble {es : List Role} (h : EnableChoice es) (mode : Mode) (v : Byte) :
    LeavesNibble ((sendSeq es mode v).take 5) 0 ∧ LeavesNibble ((sendSeq es mode v).take 10) (highNibble v) ∧
      LeavesNibble ((sendSeq es mode v).take (17 + 2 * es.length)) 0 ∧
      LeavesNibble ((sendSeq es mode v).take (22 + 2 * es.length)) (lowNibble v) ∧
      LeavesNibble (sendSeq es mode v) (lowNibble v) := by
  have hcut (k : Nat) := leavesNibble_dataWrites ((sendSeq es mode v).take k)
  have hend : LeavesNibble (sendSeq es mode v) (lowNibble v) := by
    rw [← List.take_append_drop (18 + 2 * es.length) (sendSeq es mode v)]
    refine leavesNibble_append _ ?_
    rcases h with rfl | rfl | rfl <;> exact ⟨fun _ => rfl, fun _ => rfl, fun _ => rfl, fun _ => rfl⟩
  refine ⟨hcut 1 0, hcut 6 (highNibble v), ?_, ?_, hend⟩
  · rcases h with rfl | rfl | rfl
    · exact hcut 15 0
    · exact hcut 17 0
    · exact hcut 15 0
  · rcases h with rfl | rfl | rfl
    · exact hcut 20 (lowNibble v)
    · exact hcut 22 (lowNibble v)
    · exact hcut 20 (lowNibble v)

theorem EnableChoice.rs_not_mem {es : List Role} (h : EnableChoice es) : Role.rs ∉ es := by
  rcases h with rfl | rfl | rfl <;> decide

/-- RS is written by the first primitive of SendSeq only (R91). -/
theorem rs_not_written {es : List Role} (h : EnableChoice es) (v : Byte) (b : Bool) :
    .wr .rs b ∉ sendNibble es (highNibble v) ++ sendNibble es (lowNibble v) := by
  intro hmem
  obtain ⟨n, hmem⟩ := exists_mem_sendNibble hmem
  rcases of_mem_sendNibble hmem with hes | ⟨-, hne⟩
  · exact h.rs_not_mem hes
  · exact hne rfl

theorem sendSeq_take_rs {es : List Role} (h : EnableChoice es) (mode : Mode) (v : Byte) (k : Nat) (l : Option Bool) :
    levelAfter .rs l ((sendSeq es mode v).take (k + 1)) = some mode.level :=
  levelAfter_of_not_written (fun b hb => rs_not_written h v b (List.mem_of_mem_take hb)) _

theorem sendSeq_rs {es : List Role} (h : EnableChoice es) (mode : Mode) (v : Byte) (l : Option Bool) :
    levelAfter .rs l (sendSeq es mode v) = some mode.level :=
  levelAfter_of_not_written (rs_not_written h v) _

/-- A SEND writes RS, the data lines and its enables only (R91). -/
theorem not_written_sendSeq {es : List Role} {r : Role} (hes : r ∉ es) (hr : isDataOrRs r = false) (mode : Mode) (v : Byte)
    (b : Bool) : .wr r b ∉ sendSeq es mode v := by
  intro hmem
  rcases List.mem_cons.1 hmem with heq | hmem
  · cases heq
    cases hr
  · obtain ⟨n, hmem⟩ := exists_mem_sendNibble hmem
    rcases of_mem_sendNibble hmem with hmem | ⟨hdata, -⟩
    · exact hes hmem
    · cases hr.symm.trans hdata

/-- A SEND leaves its enables low (R91). -/
theorem sendSeq_enable {es : List Role} (h : EnableChoice es) (mode : Mode) (v : Byte) {e : Role} (he : e ∈ es)
    (l : Option Bool) : levelAfter e l (sendSeq es mode v) = some false := by
  rcases h with rfl | rfl | rfl
  · cases List.mem_singleton.1 he
    rfl
  · rcases List.mem_pair.1 he with rfl | rfl <;> rfl
  · cases List.mem_singleton.1 he
    rfl

/-- Settles O24: the levels that SendSeq leaves, line by line. -/
theorem sendLeavesLines : Obligations.SendLeavesLines := by
  intro tgt mode v es s hready henables hok
  obtain ⟨ps, w, t₁, hps, -, hexec, -, hends⟩ := exec_send_run (mode := mode) (v := v) hready henables hok
  have hchoice := enableChoice_of_enables henables
  obtain ⟨-, -, -, -, hdata⟩ := sendSeq_leavesNibble hchoice mode v
  have hrs := sendSeq_rs hchoice mode v s.pin.rs.lvl
  have hlow (e : Role) (he : e ∈ es) := sendSeq_enable hchoice mode v he (s.pin.get e).lvl
  have hother (r : Role) (hes : r ∉ es) (hr : isDataOrRs r = false) := not_written_sendSeq hes hr mode v
  rw [← hps] at hdata hrs hlow hother
  have hpin (r : Role) := transmit_pin ps (begun w ps s) r
  refine ⟨t₁, _, hexec, hends, rfl, ?_, ?_, fun e he => ?_, fun r hr hes => ?_, fun r => ?_⟩
  · exact (congrArg Pin.lvl (hpin .rs)).trans hrs
  · rw [← toNat_lowNibble]
    exact hdata.dataLines (endCommand_pin _ _)
  · exact (congrArg Pin.lvl (hpin e)).trans (hlow e he)
  · refine (hpin r).trans ?_
    rw [levelAfter_of_not_written (hother r hes hr)]
    rfl
  · rw [endCommand_pin, hpin r]
    exact ⟨rfl, rfl, rfl⟩

/-! ### RS (R96) -/

/-- The UWR words of RS (R64). -/
theorem isRsWord_encode (p : Prim) :
    (encode p.toInstr = 0x9200 ∨ encode p.toInstr = 0x9201) ↔ ∃ b, p = .wr .rs b := by
  cases p with
  | acq r | rel r => cases r <;> simp [Prim.toInstr, encode, Role.code]
  | wr r b => cases r <;> cases b <;> simp [Prim.toInstr, encode, Role.code]
  | dly c => cases c <;> simp [Prim.toInstr, encode, DelayClass.code]

theorem no_rsWord {ps : List Prim} (h : ∀ b, .wr .rs b ∉ ps) :
    ((wordsOf ps).filter (fun w => w = 0x9200 ∨ w = 0x9201)) = [] := by
  refine List.filter_eq_nil_iff.2 fun w hw => ?_
  obtain ⟨p, hp, rfl⟩ := List.mem_map.1 hw
  rw [decide_eq_true_eq, isRsWord_encode]
  rintro ⟨b, rfl⟩
  exact h b hp

theorem writesSeen_append (xs ys : List (Word16 × Nat)) : writesSeen (xs ++ ys) = writesSeen xs ++ writesSeen ys := by
  simp [writesSeen]

/-- The beginnings of SendSeq hold one write of RS (R91). -/
theorem rsWords_sendSeq {es : List Role} (h : EnableChoice es) (mode : Mode) (v : Byte) (k : Nat) :
    ((wordsOf (((sendSeq es mode v).take (k + 1)).filter Prim.isWrite)).filter
      (fun w => w = 0x9200 ∨ w = 0x9201)).length = 1 := by
  have hrest := no_rsWord (ps := ((sendNibble es (highNibble v) ++ sendNibble es (lowNibble v)).take k).filter Prim.isWrite)
    fun b hb => rs_not_written h v b (List.mem_of_mem_take (List.mem_of_mem_filter hb))
  have hfirst := (isRsWord_encode (.wr .rs mode.level)).2 ⟨_, rfl⟩
  show (List.filter _ (encode (Prim.wr .rs mode.level).toInstr :: wordsOf _)).length = 1
  rw [List.filter_cons_of_pos (by simpa using hfirst), hrest]
  rfl

/-- Settles O25: RS is written first and no more. -/
theorem sendHoldsRegisterSelect : Obligations.SendHoldsRegisterSelect := by
  intro tgt mode v es s hready henables hok
  obtain ⟨ps, w, t₁, hps, hcan, hexec, hgoes, hends⟩ := exec_send_run (mode := mode) (v := v) hready henables hok
  have hchoice := enableChoice_of_enables henables
  have hlevel (k : Nat) := sendSeq_take_rs hchoice mode v k s.pin.rs.lvl
  have hwords := rsWords_sendSeq hchoice mode v
  have hlength := length_sendSeq es mode v
  rw [← hps] at hlevel hwords hlength
  have hpast (k : Nat) : (transmit (ps.take (k + 1)) (begun w ps s)).pin.rs.lvl = some mode.level ∧
      ((writesSeen (transmit (ps.take (k + 1)) (begun w ps s)).trace).filter (fun w => w = 0x9200 ∨ w = 0x9201)).length =
        ((writesSeen s.trace).filter (fun w => w = 0x9200 ∨ w = 0x9201)).length + 1 := by
    refine ⟨(congrArg Pin.lvl (transmit_pin _ _ .rs)).trans (hlevel k), ?_⟩
    rw [transmit_trace (hcan.take (k + 1)), writesSeen_append, List.filter_append, List.length_append,
      writesSeen_stamped, hwords]
    rfl
  refine ⟨t₁, hexec, fun k hk => ?_⟩
  rcases Nat.lt_or_eq_of_le hk with hlt | rfl
  · exact ⟨_, hgoes k hlt, hpast k⟩
  · have hend := hpast (24 + 4 * es.length)
    rw [List.take_of_length_le (by omega)] at hend
    exact ⟨_, hends, hend⟩

end Sys2Proof.Machine

/-! # The latches of a SEND (R58, R98) -/

namespace Sys2Proof.Machine

/-! ### Falling edges -/

/-- A controller appends nothing at a write that is no fall of its enable, nor at a delay (R58). -/
theorem latchOf_performed {e : Role} (he : IsEnable e) {p : Prim} (hp : p ≠ .wr e false) (s : State) :
    latchOf e (performed p s) = latchOf e s := by
  cases p with
  | wr r b =>
    show latchOf e (observe r _ _ (emit _ s)) = latchOf e s
    by_cases hr : r = e
    · obtain rfl := hr
      obtain rfl : b = true := by
        cases b with
        | true => rfl
        | false => exact absurd rfl hp
      rw [writeEdge_none (.inl ⟨rfl, .inl rfl⟩)]
      rfl
    · exact latchOf_observe_ne he hr _ _ _
  | dly _ | acq _ | rel _ => rfl

theorem latchOf_transmit {e : Role} (he : IsEnable e) {ps : List Prim} (hps : .wr e false ∉ ps) (s : State) :
    latchOf e (transmit ps s) = latchOf e s := by
  induction ps generalizing s with
  | nil => rfl
  | cons p ps ih =>
    obtain ⟨hp, hps⟩ := not_or.1 (mt List.mem_cons.2 hps)
    rw [transmit_cons, ih hps, latchOf_performed he (Ne.symm hp)]

/-- At the fall of a high enable its controller samples the lines (R58). -/
theorem latchOf_performed_fall {e : Role} (he : IsEnable e) {s : State} (hhigh : (s.pin.get e).lvl = some true) :
    latchOf e (performed (.wr e false) s) = latchOf e s ++ [sampledRecord s.draw s] := by
  show latchOf e (observe e (writeEdge (s.pin.get e).lvl false true) s.draw (emit _ s)) = _
  rw [writeEdge_falling ⟨rfl, rfl, hhigh⟩]
  exact latchOf_observe_falling he s.draw _

/-! ### The nibbles of a SEND -/

/-- The sequence is cut at its one fall of e, before which e is high, RS as it was and the nibble n on the data lines. -/
structure FallsOnce (e : Role) (n : Nibble) (ps before after : List Prim) : Prop where
  cut   : ps = before ++ .wr e false :: after
  first : .wr e false ∉ before
  last  : .wr e false ∉ after
  high  : ∀ l, levelAfter e l before = some true
  rs    : ∀ l, levelAfter .rs l before = l
  data  : LeavesNibble before n

/-- A selected enable falls once in a nibble's transmission: after the eleven primitives of the lines and the holds, all the
rises, and the falls of the enables before it (R91). -/
theorem sendNibble_fallsOnce {es : List Role} (h : EnableChoice es) {e : Role} (he : e ∈ es) (n : Nibble) :
    FallsOnce e n (sendNibble es n) ((sendNibble es n).take (11 + es.length + es.idxOf e))
      ((sendNibble es n).drop (12 + es.length + es.idxOf e)) := by
  have hpair : (es = [.en] ∧ e = .en) ∨ (es = [.en, .en2] ∧ e = .en) ∨ (es = [.en, .en2] ∧ e = .en2) ∨
      (es = [.en2] ∧ e = .en2) := by
    rcases h with rfl | rfl | rfl <;> simpa using he
  rcases hpair with ⟨rfl, rfl⟩ | ⟨rfl, rfl⟩ | ⟨rfl, rfl⟩ | ⟨rfl, rfl⟩ <;>
    exact {
      cut := rfl
      first := by simp [sendNibble, dataWrites]
      last := by simp [sendNibble, dataWrites]
      high := fun _ => rfl
      rs := fun _ => rfl
      data := ⟨fun _ => rfl, fun _ => rfl, fun _ => rfl, fun _ => rfl⟩ }

/-- The controller of a selected enable latches the nibble, once (R98). -/
theorem contents_sendNibble {es : List Role} (h : EnableChoice es) {e : Role} (he : e ∈ es) (n : Nibble) {s : State}
    {l : Bool} (hrs : s.pin.rs.lvl = some l) :
    contents (latchOf e (transmit (sendNibble es n) s)) = contents (latchOf e s) ++ [(l, n)] := by
  have henable := h.isEnable he
  have hfall := sendNibble_fallsOnce h he n
  generalize (sendNibble es n).take _ = before, (sendNibble es n).drop _ = after at hfall
  obtain ⟨hcut, hbefore, hafter, hhigh, hkeeps, hdata⟩ := hfall
  have hlvl (r : Role) : ((transmit before s).pin.get r).lvl = levelAfter r (s.pin.get r).lvl before := by rw [transmit_pin]
  have hrs' : (transmit before s).pin.rs.lvl = some l := (hlvl .rs).trans ((hkeeps _).trans hrs)
  obtain ⟨hrec, hnib⟩ := sampledRecord_of_defined (transmit before s).draw hrs' (hdata.dataLines rfl)
  rw [hcut, transmit_append, transmit_cons, latchOf_transmit henable hafter,
    latchOf_performed_fall henable ((hlvl e).trans (hhigh _)), latchOf_transmit henable hbefore, contents, List.map_append]
  simp only [List.map_cons, List.map_nil, hrec, BitVec.eq_of_toNat_eq hnib]
  rfl

theorem not_fall_of_not_mem {es : List Role} {e : Role} (henable : IsEnable e) (he : e ∉ es) (n : Nibble) :
    .wr e false ∉ sendNibble es n := by
  intro hmem
  rcases of_mem_sendNibble hmem with hes | ⟨hdata, -⟩
  · exact he hes
  · rcases henable with rfl | rfl <;> cases hdata

/-- What a SEND adds to a controller's records: both nibbles when its enable is selected, else nothing (R98). -/
theorem contents_sendSeq {es : List Role} (h : EnableChoice es) {e : Role} (henable : IsEnable e) (mode : Mode) (v : Byte)
    (s : State) :
    contents (latchOf e (transmit (sendSeq es mode v) s)) = contents (latchOf e s) ++
      (if e ∈ es then [(mode.level, highNibble v), (mode.level, lowNibble v)] else []) := by
  have hfirst : latchOf e (performed (.wr .rs mode.level) s) = latchOf e s := by
    refine latchOf_performed henable ?_ s
    rcases henable with rfl | rfl <;> nofun
  rw [sendSeq, transmit_cons, transmit_append]
  split
  · next he =>
    have hrs : (performed (.wr .rs mode.level) s).pin.rs.lvl = some mode.level := congrArg Pin.lvl (performed_pin _ s .rs)
    have hrs' : (transmit (sendNibble es (highNibble v)) (performed (.wr .rs mode.level) s)).pin.rs.lvl =
        some mode.level := by
      refine (congrArg Pin.lvl (transmit_pin _ _ .rs)).trans ((levelAfter_of_not_written (fun b hb => ?_) _).trans hrs)
      exact rs_not_written h v b (List.mem_append_left _ hb)
    rw [contents_sendNibble h he _ hrs', contents_sendNibble h he _ hrs, hfirst, List.append_assoc]
    rfl
  · next he =>
    rw [latchOf_transmit henable (not_fall_of_not_mem henable he _),
      latchOf_transmit henable (not_fall_of_not_mem henable he _), hfirst, List.append_nil]

/-- Which enables a target selects (R90). -/
theorem mem_enables_iff {tgt : Target} {nc : Option Controllers} {es : List Role} (h : enables tgt nc = some es) :
    (.en ∈ es ↔ tgt ≠ .second) ∧ (.en2 ∈ es ↔ tgt = .second ∨ (tgt = .all ∧ nc = some .two)) := by
  cases tgt with
  | first =>
    cases h
    simp
  | all =>
    rw [enables] at h
    split at h <;> cases h <;> simp_all
  | second =>
    rw [enables] at h
    split at h <;> cases h
    simp

/-- Settles O23: the data lines at four places of SendSeq, and the records of its two nibbles. -/
theorem sendDrivesAndLatchesNibbles : Obligations.SendDrivesAndLatchesNibbles := by
  intro tgt mode v es s hready henables hok
  obtain ⟨ps, w, t₁, hps, -, hexec, hgoes, hends⟩ := exec_send_run (mode := mode) (v := v) hready henables hok
  have hchoice := enableChoice_of_enables henables
  have hpositive := hchoice.length_pos
  obtain ⟨hclear, hhigh, hclear', hlow, -⟩ := sendSeq_leavesNibble hchoice mode v
  have hcontents (e : Role) (he : IsEnable e) := contents_sendSeq hchoice he mode v (begun w ps s)
  obtain ⟨hen, hen2⟩ := mem_enables_iff henables
  rw [← hps] at hclear hhigh hclear' hlow hcontents
  refine ⟨t₁, _, hexec, hends, ⟨_, hgoes 4 (by omega), hclear.dataLines rfl⟩, ⟨_, hgoes 9 (by omega), ?_⟩,
    ⟨_, hgoes (16 + 2 * es.length) (by omega), ?_⟩, ⟨_, hgoes (21 + 2 * es.length) (by omega), ?_⟩, ?_⟩
  · rw [← toNat_highNibble]
    exact hhigh.dataLines rfl
  · rw [show 16 + 2 * es.length + 1 = 17 + 2 * es.length by omega]
    exact hclear'.dataLines rfl
  · rw [show 21 + 2 * es.length + 1 = 22 + 2 * es.length by omega, ← toNat_lowNibble]
    exact hlow.dataLines rfl
  · rintro pair rfl
    rw [← toNat_highNibble, ← toNat_lowNibble, BitVec.ofNat_toNat, BitVec.ofNat_toNat, BitVec.setWidth_eq, BitVec.setWidth_eq]
    refine ⟨(hcontents .en (.inl rfl)).trans ?_, (hcontents .en2 (.inr rfl)).trans ?_⟩
    · simp only [hen, ne_eq, ite_not]
      rfl
    · simp only [hen2]
      rfl

end Sys2Proof.Machine

/-! # Well-timed latches (R59, R93)

`Pulse` says where an enable's line stands between a setup word and the end of a hold; `Course` says what each standing means
for TRACE, NOW and the stamps of the latches, and is kept by every word that its `Pulse.next` allows. A transmission is
followed primitive by primitive (`Tracks.transmit`). -/

namespace Sys2Proof.Machine

/-! ### The nearest word -/

theorem nearest_cons_of_pos {p : Word16 → Bool} {w : Word16} (h : p w = true) (x : Nat) (xs : List (Word16 × Nat)) :
    nearest p ((w, x) :: xs) = some (x, xs) := by
  simp [nearest, h]

theorem nearest_cons_of_neg {p : Word16 → Bool} {w : Word16} (h : p w = false) (x : Nat) (xs : List (Word16 × Nat)) :
    nearest p ((w, x) :: xs) = nearest p xs := by
  simp [nearest, h]

/-- The stamp found is that of a word that `p` picks. -/
theorem exists_mem_of_nearest {p : Word16 → Bool} {xs rest : List (Word16 × Nat)} {x : Nat}
    (h : nearest p xs = some (x, rest)) : ∃ w, (w, x) ∈ xs ∧ p w = true := by
  induction xs with
  | nil => cases h
  | cons y ys ih =>
    rw [nearest] at h
    split at h
    · next hy =>
      cases h
      exact ⟨y.1, List.mem_cons_self, hy⟩
    · obtain ⟨w, hw, hp⟩ := ih h
      exact ⟨w, List.mem_cons_of_mem _ hw, hp⟩

/-- The last setup word of a trace has the stamp `ts` (R59). -/
def SetUpAt (words : List (Word16 × Nat)) (ts : Nat) : Prop := ∃ before, nearest isSetupWord words.reverse = some (ts, before)

/-- The last rising-edge word of e has the stamp `tr`, and was set up T before (R59). -/
def RisenAt (T : Nat) (e : Role) (words : List (Word16 × Nat)) (tr : Nat) : Prop :=
  ∃ before ts rest, nearest (· = encode (.uwr e true)) words.reverse = some (tr, before) ∧
    nearest isSetupWord before = some (ts, rest) ∧ ts + T ≤ tr

theorem setUpAt_append {words : List (Word16 × Nat)} {w : Word16} (h : isSetupWord w = true) (x : Nat) :
    SetUpAt (words ++ [(w, x)]) x :=
  ⟨words.reverse, by rw [List.reverse_append]; exact nearest_cons_of_pos h x _⟩

theorem SetUpAt.append {words : List (Word16 × Nat)} {w : Word16} {ts : Nat} (h : SetUpAt words ts)
    (hw : isSetupWord w = false) (x : Nat) : SetUpAt (words ++ [(w, x)]) ts := by
  obtain ⟨before, h⟩ := h
  exact ⟨before, by rw [List.reverse_append]; exact (nearest_cons_of_neg hw x _).trans h⟩

theorem SetUpAt.rise {T : Nat} {words : List (Word16 × Nat)} {ts x : Nat} (h : SetUpAt words ts) (hx : ts + T ≤ x) (e : Role) :
    RisenAt T e (words ++ [(encode (.uwr e true), x)]) x := by
  obtain ⟨before, h⟩ := h
  exact ⟨words.reverse, ts, before, by rw [List.reverse_append]; exact nearest_cons_of_pos (by simp) x _, h, hx⟩

theorem RisenAt.append {T : Nat} {e : Role} {words : List (Word16 × Nat)} {w : Word16} {tr : Nat} (h : RisenAt T e words tr)
    (hw : w ≠ encode (.uwr e true)) (x : Nat) : RisenAt T e (words ++ [(w, x)]) tr := by
  obtain ⟨before, ts, rest, h, hsetup⟩ := h
  exact ⟨before, ts, rest, by rw [List.reverse_append]; exact (nearest_cons_of_neg (by simpa using hw) x _).trans h, hsetup⟩

/-- A fall is well-timed T after its rise when no hold ends less than T after it (R59). -/
theorem RisenAt.wellTimedAt {T : Nat} {e : Role} {words later : List (Word16 × Nat)} {tr tf : Nat}
    (h : RisenAt T e words tr) (htf : tr + T ≤ tf)
    (hlater : ∀ y ∈ later, isHoldEndWord y.1 = true → tf + T ≤ y.2) :
    wellTimedAt T e (words ++ (encode (.uwr e false), tf) :: later) words.length = true := by
  obtain ⟨before, ts, rest, hrise, hsetup, hts⟩ := h
  have hword : (words ++ (encode (.uwr e false), tf) :: later)[words.length]? = some (encode (.uwr e false), tf) := by simp
  have htake : (words ++ (encode (.uwr e false), tf) :: later).take words.length = words := List.take_left
  have hdrop : (words ++ (encode (.uwr e false), tf) :: later).drop (words.length + 1) = later := by simp
  simp only [Machine.wellTimedAt, hword, htake, hdrop, hrise, hsetup, hts, htf, decide_true, Bool.true_and]
  cases hhold : nearest isHoldEndWord later with
  | none => rfl
  | some found =>
    obtain ⟨w, hw, hp⟩ := exists_mem_of_nearest (x := found.1) (rest := found.2) hhold
    exact decide_eq_true (hlater _ hw hp)

/-! ### Falls that are held -/

/-- Every fall of e from index `from_` on is well-timed in every continuation in which no hold ends before `due`. -/
def FallsHeld (T : Nat) (e : Role) (from_ due : Nat) (words : List (Word16 × Nat)) : Prop :=
  ∀ i, from_ ≤ i → (words[i]?).map Prod.fst = some (encode (.uwr e false)) →
    ∀ later : List (Word16 × Nat), (∀ y ∈ later, isHoldEndWord y.1 = true → due ≤ y.2) →
      wellTimedAt T e (words ++ later) i = true

theorem FallsHeld.fallsWellTimed {T : Nat} {e : Role} {from_ due : Nat} {words : List (Word16 × Nat)}
    (h : FallsHeld T e from_ due words) : FallsWellTimed T e from_ due words :=
  fun i hi hword later hlater => h i hi hword later fun y hy _ => hlater y hy

theorem FallsHeld.mono {T : Nat} {e : Role} {from_ due due' : Nat} {words : List (Word16 × Nat)}
    (h : FallsHeld T e from_ due words) (hdue : due ≤ due') : FallsHeld T e from_ due' words :=
  fun i hi hword later hlater => h i hi hword later fun y hy hp => hdue.trans (hlater y hy hp)

/-- A word that ends no hold too early keeps the falls before it, and is well-timed itself if it is a fall. -/
theorem FallsHeld.append {T : Nat} {e : Role} {from_ due : Nat} {words : List (Word16 × Nat)} {w : Word16} {x : Nat}
    (h : FallsHeld T e from_ due words) (hhold : isHoldEndWord w = true → due ≤ x)
    (hfall : w = encode (.uwr e false) → ∃ tr, RisenAt T e words tr ∧ tr + T ≤ x ∧ x + T ≤ due) :
    FallsHeld T e from_ due (words ++ [(w, x)]) := by
  intro i hi hword later hlater
  rw [List.append_assoc, List.singleton_append]
  rcases lt_trichotomy i words.length with hlt | rfl | hgt
  · rw [List.getElem?_append_left hlt] at hword
    exact h i hi hword ((w, x) :: later) (List.forall_mem_cons.2 ⟨hhold, hlater⟩)
  · obtain rfl : w = encode (.uwr e false) := by simpa using hword
    obtain ⟨tr, hrisen, htr, hdue⟩ := hfall rfl
    exact hrisen.wellTimedAt htr fun y hy hp => hdue.trans (hlater y hy hp)
  · rw [List.getElem?_eq_none (by simpa using hgt)] at hword
    cases hword

theorem fallStamps_append {e : Role} {from_ : Nat} {words : List (Word16 × Nat)} (h : from_ ≤ words.length) (w : Word16)
    (x : Nat) : fallStamps e from_ (words ++ [(w, x)]) =
      fallStamps e from_ words ++ (if w = encode (.uwr e false) then [x] else []) := by
  rw [fallStamps, List.drop_append_of_le_length h, List.filter_append, List.map_append]
  congr 1
  split <;> simp [*]

/-! ### Where an enable's line stands -/

/-- Between two pulses an enable is low, and after setup words ready to rise; then it is high, ripe to fall, and fallen. -/
inductive Pulse where
  | low | setUp | ready | high | ripe | fallen

namespace Pulse

/-- The line is high. -/
def isHigh : Pulse → Bool
  | .low => false
  | .setUp => false
  | .ready => false
  | .high => true
  | .ripe => true
  | .fallen => false

/-- The line is low, and the hold of its last fall is over. -/
def settled : Pulse → Bool
  | .low => true
  | .setUp => true
  | .ready => true
  | .high => false
  | .ripe => false
  | .fallen => false

/-- After a wait of T. -/
def waited : Pulse → Pulse
  | .low => .low
  | .setUp => .ready
  | .ready => .ready
  | .high => .ripe
  | .ripe => .ripe
  | .fallen => .low

/-- After a rise, which must find the enable ready. -/
def risen : Pulse → Option Pulse
  | .ready => some .high
  | _ => none

/-- After a fall, which must find the enable ripe. -/
def dropped : Pulse → Option Pulse
  | .ripe => some .fallen
  | _ => none

/-- After a primitive of a plan that keeps R59's bounds, whether its roles are acquired or not; none where a bound could
be broken. -/
def next (e : Role) (st : Pulse) : Prim → Option Pulse
  | .wr r b =>
    if r = e then (if b then st.risen else st.dropped)
    else if isDataOrRs r then (if st.settled then some .setUp else none)
    else some st
  | .dly c => some (if c = .t then st.waited else st)
  | .acq _ => if st.settled then some st else none
  | .rel _ => if st.settled then some st else none

/-- From when on a hold may end. -/
def due (T now : Nat) : Pulse → Nat
  | .low => now
  | .setUp => now
  | .ready => now
  | .high => now
  | .ripe => now
  | .fallen => now + T

/-- What TRACE shows of the standing at NOW. -/
def Shown (T : Nat) (e : Role) (words : List (Word16 × Nat)) (now : Nat) : Pulse → Prop
  | .low => True
  | .setUp => ∃ ts, SetUpAt words ts ∧ ts ≤ now
  | .ready => ∃ ts, SetUpAt words ts ∧ ts + T ≤ now
  | .high => ∃ tr, RisenAt T e words tr ∧ tr ≤ now
  | .ripe => ∃ tr, RisenAt T e words tr ∧ tr + T ≤ now
  | .fallen => True

theorem eq_of_risen {st st' : Pulse} (h : st.risen = some st') : st = .ready ∧ st' = .high := by
  cases st <;> cases h
  exact ⟨rfl, rfl⟩

theorem eq_of_dropped {st st' : Pulse} (h : st.dropped = some st') : st = .ripe ∧ st' = .fallen := by
  cases st <;> cases h
  exact ⟨rfl, rfl⟩

theorem due_of_settled {st : Pulse} (h : st.settled = true) (T now : Nat) : st.due T now = now := by
  cases st with
  | low | setUp | ready => rfl
  | high | ripe | fallen => cases h

theorem isHigh_of_settled {st : Pulse} (h : st.settled = true) : st.isHigh = false := by
  cases st with
  | low | setUp | ready => rfl
  | high | ripe | fallen => cases h

theorem due_mono {now now' : Nat} (h : now ≤ now') (T : Nat) (st : Pulse) : st.due T now ≤ st.due T now' := by
  cases st with
  | fallen => exact Nat.add_le_add_right h T
  | low | setUp | ready | high | ripe => exact h

theorem Shown.later {T : Nat} {e : Role} {words : List (Word16 × Nat)} {now now' : Nat} {st : Pulse}
    (h : st.Shown T e words now) (hnow : now ≤ now') : st.Shown T e words now' := by
  cases st with
  | low | fallen => trivial
  | setUp | ready | high | ripe =>
    obtain ⟨x, hx, hle⟩ := h
    exact ⟨x, hx, hle.trans hnow⟩

theorem Shown.append {T : Nat} {e : Role} {words : List (Word16 × Nat)} {now : Nat} {st : Pulse} {w : Word16}
    (h : st.Shown T e words now) (hsetup : isSetupWord w = false) (hrise : w ≠ encode (.uwr e true)) (x : Nat) :
    st.Shown T e (words ++ [(w, x)]) now := by
  cases st with
  | low | fallen => trivial
  | setUp | ready =>
    obtain ⟨ts, hts, hle⟩ := h
    exact ⟨ts, hts.append hsetup x, hle⟩
  | high | ripe =>
    obtain ⟨tr, htr, hle⟩ := h
    exact ⟨tr, htr.append hrise x, hle⟩

theorem Shown.waited {T : Nat} {e : Role} {words : List (Word16 × Nat)} {now : Nat} {st : Pulse}
    (h : st.Shown T e words now) : st.waited.Shown T e words (now + T) := by
  cases st with
  | low | fallen => trivial
  | setUp | high =>
    obtain ⟨x, hx, hle⟩ := h
    exact ⟨x, hx, Nat.add_le_add_right hle T⟩
  | ready | ripe =>
    obtain ⟨x, hx, hle⟩ := h
    exact ⟨x, hx, Nat.le_add_right_of_le hle⟩

theorem due_waited (T now : Nat) (st : Pulse) : st.due T now ≤ st.waited.due T (now + T) := by
  cases st with
  | fallen => exact le_rfl
  | low | setUp | ready | high | ripe => exact Nat.le_add_right now T

end Pulse

/-- An enable's standing, for TRACE, NOW and the stamps of its controller's records: from index `from_` on every fall is held,
and the records beyond `base` stand at the falls. -/
structure Course (T : Nat) (from_ : Nat) (base : List Nat) (e : Role) (st : Pulse) (words : List (Word16 × Nat))
    (now : Nat) (stamps : List Nat) : Prop where
  start   : from_ ≤ words.length
  held    : FallsHeld T e from_ (st.due T now) words
  shown   : st.Shown T e words now
  latches : stamps = base ++ fallStamps e from_ words

section
variable {T from_ now : Nat} {base stamps : List Nat} {e : Role} {st : Pulse} {words : List (Word16 × Nat)} {w : Word16}

theorem Course.later (h : Course T from_ base e st words now stamps) {now' : Nat} (hnow : now ≤ now') :
    Course T from_ base e st words now' stamps :=
  ⟨h.start, h.held.mono (Pulse.due_mono hnow T st), h.shown.later hnow, h.latches⟩

theorem Course.waited (h : Course T from_ base e st words now stamps) :
    Course T from_ base e st.waited words (now + T) stamps :=
  ⟨h.start, h.held.mono (Pulse.due_waited T now st), h.shown.waited, h.latches⟩

theorem start_append (h : from_ ≤ words.length) (x : Nat) : from_ ≤ (words ++ [(w, x)]).length := by
  rw [List.length_append]
  exact Nat.le_add_right_of_le h

/-- A word that is no edge of e and no setup word leaves the standing, if it ends no hold too early. -/
theorem Course.append (h : Course T from_ base e st words now stamps) (hsetup : isSetupWord w = false)
    (hedge : ∀ b, w ≠ encode (.uwr e b)) (hhold : isHoldEndWord w = true → st.settled = true) :
    Course T from_ base e st (words ++ [(w, now)]) now stamps where
  start := start_append h.start now
  held := h.held.append (fun hw => (Pulse.due_of_settled (hhold hw) T now).le) fun hw => absurd hw (hedge false)
  shown := h.shown.append hsetup (hedge true) now
  latches := by rw [fallStamps_append h.start, if_neg (hedge false), List.append_nil, ← h.latches]

/-- A setup word, when the enable is settled. -/
theorem Course.setUp (h : Course T from_ base e st words now stamps) (hsetup : isSetupWord w = true)
    (hedge : w ≠ encode (.uwr e false)) (hst : st.settled = true) :
    Course T from_ base e .setUp (words ++ [(w, now)]) now stamps where
  start := start_append h.start now
  held := by
    have hheld := h.held
    rw [Pulse.due_of_settled hst] at hheld
    exact hheld.append (fun _ => le_rfl) fun hw => absurd hw hedge
  shown := ⟨now, setUpAt_append hsetup now, le_rfl⟩
  latches := by rw [fallStamps_append h.start, if_neg hedge, List.append_nil, ← h.latches]

/-- The rise of an enable that is ready. -/
theorem Course.rises (h : Course T from_ base e .ready words now stamps)
    (hhold : isHoldEndWord (encode (.uwr e true)) = false) (hedge : encode (.uwr e true) ≠ encode (.uwr e false)) :
    Course T from_ base e .high (words ++ [(encode (.uwr e true), now)]) now stamps where
  start := start_append h.start now
  held := h.held.append (by simp [hhold]) fun hw => absurd hw hedge
  shown := by
    obtain ⟨ts, hts, hle⟩ := h.shown
    exact ⟨now, hts.rise hle e, le_rfl⟩
  latches := by rw [fallStamps_append h.start, if_neg hedge, List.append_nil, ← h.latches]

/-- The fall of an enable that is ripe, with its record. -/
theorem Course.falls (h : Course T from_ base e .ripe words now stamps)
    (hhold : isHoldEndWord (encode (.uwr e false)) = false) :
    Course T from_ base e .fallen (words ++ [(encode (.uwr e false), now)]) now (stamps ++ [now]) where
  start := start_append h.start now
  held := by
    obtain ⟨tr, hrisen, hle⟩ := h.shown
    exact (h.held.mono (Nat.le_add_right now T)).append (by simp [hhold]) fun _ => ⟨tr, hrisen, hle, le_rfl⟩
  shown := trivial
  latches := by rw [fallStamps_append h.start, if_pos rfl, h.latches, List.append_assoc]

end

end Sys2Proof.Machine

/-! # The latches of a SEND and of a clean run are well-timed (R93, R144) -/

namespace Sys2Proof.Machine

/-! ### A state on its course -/

theorem encode_toInstr_ne {p q : Prim} (h : p ≠ q) : encode p.toInstr ≠ encode q.toInstr := by
  intro heq
  have hdecode := decodeTrace_toInstr p
  rw [heq, decodeTrace_toInstr] at hdecode
  have hprim := congrArg primOf (Except.ok.inj hdecode)
  rw [primOf_toInstr, primOf_toInstr] at hprim
  exact h (Option.some.inj hprim).symm

theorem IsEnable.not_dataOrRs {e : Role} (h : IsEnable e) : isDataOrRs e = false := by
  rcases h with rfl | rfl <;> rfl

/-- A primitive that is no write of e emits no edge word of e. -/
theorem not_edge {p : Prim} {e : Role} (h : ∀ b, p ≠ .wr e b) (b : Bool) : encode p.toInstr ≠ encode (.uwr e b) :=
  encode_toInstr_ne (q := .wr e b) (h b)

/-- The enable e of a state stands at `st`: TRACE, NOW and the records show it, and its line has the level. -/
structure Tracks (T from_ : Nat) (base : List Nat) (e : Role) (st : Pulse) (s : State) : Prop where
  course : Course T from_ base e st s.trace s.now ((latchOf e s).map (·.t))
  level  : (s.pin.get e).acq = true → (s.pin.get e).lvl = some st.isHigh

section
variable {T from_ : Nat} {base : List Nat} {e : Role} {st : Pulse} {s : State}

theorem Tracks.of_same (h : Tracks T from_ base e st s) {t : State} (hpin : t.pin = s.pin)
    (hrecords : recordsOf t = recordsOf s) : Tracks T from_ base e st t where
  course := by
    have htrace : t.trace = s.trace := congrArg Records.trace hrecords
    have hnow : t.now = s.now := congrArg Records.now hrecords
    rw [htrace, hnow, latchOf_of_records hrecords]
    exact h.course
  level := by
    rw [hpin]
    exact h.level

theorem Tracks.elapse (h : Tracks T from_ base e st s) (d : Draw) : Tracks T from_ base e st (elapse d s) :=
  ⟨h.course.later (Nat.le_add_right s.now d.dur), h.level⟩

/-- The word of a primitive that is no edge of e and writes no setup line. -/
theorem Tracks.course_word (h : Tracks T from_ base e st s) {p : Prim} (hp : ∀ b, p ≠ .wr e b) (hsetup : p.isSetup = false)
    (hhold : p.endsHold = true → st.settled = true) :
    Course T from_ base e st (s.trace ++ [(encode p.toInstr, s.now)]) s.now ((latchOf e s).map (·.t)) :=
  h.course.append (by rw [isSetupWord_encode, hsetup]) (not_edge hp) (by rwa [isHoldEndWord_encode])

/-- A write of e that the standing allows (R52). -/
theorem Tracks.edge (h : Tracks T from_ base e st s) (he : IsEnable e) {b : Bool} {st' : Pulse}
    (hnext : st.next e (.wr e b) = some st') (hacq : (s.pin.get e).acq = true) :
    Course T from_ base e st' (s.trace ++ [(encode (.uwr e b), s.now)]) s.now
      ((latchOf e (performed (.wr e b) s)).map (·.t)) ∧ st'.isHigh = b := by
  have hhold (b : Bool) : isHoldEndWord (encode (.uwr e b)) = false :=
    (isHoldEndWord_encode (.wr e b)).trans he.not_dataOrRs
  cases b with
  | true =>
    obtain ⟨rfl, rfl⟩ := Pulse.eq_of_risen (by simpa [Pulse.next] using hnext)
    rw [latchOf_performed he (by simp)]
    exact ⟨h.course.rises (hhold true) (encode_toInstr_ne (p := .wr e true) (q := .wr e false) (by simp)), rfl⟩
  | false =>
    obtain ⟨rfl, rfl⟩ := Pulse.eq_of_dropped (by simpa [Pulse.next] using hnext)
    rw [latchOf_performed_fall he (h.level hacq), List.map_append, List.map_singleton, sampledRecord_t]
    exact ⟨h.course.falls (hhold false), rfl⟩

/-- A primitive of a transmission moves the standing as `Pulse.next` says. -/
theorem Tracks.performed (h : Tracks T from_ base e st s) (he : IsEnable e) (hT : s.params.tHold = T) {p : Prim} {st' : Pulse}
    (hnext : st.next e p = some st') (hp : Writable s p) : Tracks T from_ base e st' (performed p s) := by
  suffices hcourse : Course T from_ base e st' (s.trace ++ [(encode p.toInstr, s.now)]) (s.now + primBound s.params p)
      ((latchOf e (Machine.performed p s)).map (·.t)) ∧
      ((s.pin.get e).acq = true → levelAfter e (s.pin.get e).lvl [p] = some st'.isHigh) by
    refine ⟨?_, fun hacq => ?_⟩
    · rw [performed_trace hp, performed_now]
      exact hcourse.1.later (Nat.le_add_right _ _)
    · rw [performed_pin] at hacq ⊢
      exact hcourse.2 hacq
  cases p with
  | wr r b =>
    by_cases hr : r = e
    · obtain rfl := hr
      obtain ⟨hcourse, hhigh⟩ := h.edge he hnext hp
      exact ⟨hcourse, fun _ => by simp [levelAfter, hhigh]⟩
    · have hne (c : Bool) : Prim.wr r b ≠ .wr e c := fun heq => hr (Prim.wr.inj heq).1
      have hlevel : levelAfter e (s.pin.get e).lvl [.wr r b] = (s.pin.get e).lvl := by simp [levelAfter, Ne.symm hr]
      rw [latchOf_performed he (hne false), hlevel]
      simp only [Pulse.next, if_neg hr] at hnext
      split at hnext
      · next hdata =>
        obtain ⟨hst, rfl⟩ : st.settled = true ∧ .setUp = st' := by simpa using hnext
        refine ⟨h.course.setUp ((isSetupWord_encode _).trans hdata) (not_edge hne false) hst, fun hacq => ?_⟩
        exact (h.level hacq).trans (congrArg some (Pulse.isHigh_of_settled hst))
      · next hother =>
        cases hnext
        refine ⟨h.course_word hne (by simpa [Prim.isSetup] using hother) (fun hdata => absurd hdata hother), h.level⟩
  | dly c =>
    have hword := h.course_word (p := .dly c) nofun rfl nofun
    rw [latchOf_performed he (p := .dly c) nofun]
    cases hnext
    split
    · next hc =>
      subst hc
      refine ⟨?_, fun hacq => (h.level hacq).trans ?_⟩
      · rw [show primBound s.params (.dly .t) = T from hT]
        exact hword.waited
      · cases st <;> rfl
    · exact ⟨hword.later (Nat.le_add_right _ _), h.level⟩
  | acq _ | rel _ => cases hp

/-- A whole transmission. -/
theorem Tracks.transmit {ps : List Prim} {st' : Pulse} (h : Tracks T from_ base e st s) (he : IsEnable e)
    (hT : s.params.tHold = T) (hcan : CanTransmit ps s) (hps : ps.foldlM (Pulse.next e) st = some st') :
    Tracks T from_ base e st' (transmit ps s) := by
  induction ps generalizing s st with
  | nil =>
    cases hps
    exact h
  | cons p ps ih =>
    rw [List.foldlM_cons] at hps
    obtain ⟨st₁, hnext, hrest⟩ := Option.bind_eq_some_iff.1 hps
    refine ih (h.performed he hT hnext (hcan.writable p List.mem_cons_self)) ?_ hcan.tail hrest
    rw [performed_params, hT]

end

/-! ### Plans that leave an enable settled -/

/-- From every settled standing the plan leads to a settled one, without breaking a bound of R59. -/
def Settles (e : Role) (ps : List Prim) : Prop :=
  ∀ st : Pulse, st.settled = true → ∃ st', ps.foldlM (Pulse.next e) st = some st' ∧ st'.settled = true

theorem settles_append {e : Role} {ps qs : List Prim} (hps : Settles e ps) (hqs : Settles e qs) : Settles e (ps ++ qs) := by
  intro st hst
  obtain ⟨st₁, hfirst, hst₁⟩ := hps st hst
  obtain ⟨st₂, hsecond, hst₂⟩ := hqs st₁ hst₁
  exact ⟨st₂, by rw [List.foldlM_append, hfirst]; exact hsecond, hst₂⟩

/-- Acquires and releases leave the standing. -/
theorem settles_of_not_transmission {e : Role} {ps : List Prim} (h : ∀ p ∈ ps, ∃ r, p = .acq r ∨ p = .rel r) :
    Settles e ps := by
  intro st hst
  refine ⟨st, ?_, hst⟩
  induction ps with
  | nil => rfl
  | cons p ps ih =>
    obtain ⟨hp, hps⟩ := List.forall_mem_cons.1 h
    have hnext : st.next e p = some st := by
      obtain ⟨r, rfl | rfl⟩ := hp <;> exact if_pos hst
    rw [List.foldlM_cons, hnext]
    exact ih hps

theorem settles_dly (e : Role) (c : DelayClass) : Settles e [.dly c] := by
  intro st hst
  cases st with
  | low | setUp | ready => cases c <;> exact ⟨_, rfl, rfl⟩
  | high | ripe | fallen => cases hst

/-- SendSeq keeps R59's bounds for each enable, selected or not (R91). -/
theorem settles_sendSeq {es : List Role} (h : EnableChoice es) {e : Role} (he : IsEnable e) (mode : Mode) (v : Byte) :
    Settles e (sendSeq es mode v) := by
  have hafter : ∃ st', (sendSeq es mode v).tail.foldlM (Pulse.next e) .setUp = some st' ∧ st'.settled = true := by
    rcases h with rfl | rfl | rfl <;> rcases he with rfl | rfl <;> exact ⟨_, rfl, rfl⟩
  intro st hst
  have hfirst : st.next e (.wr .rs mode.level) = some .setUp := by
    rcases he with rfl | rfl <;> simp [Pulse.next, isDataOrRs, hst]
  rw [show sendSeq es mode v = .wr .rs mode.level :: (sendSeq es mode v).tail from rfl, List.foldlM_cons, hfirst]
  exact hafter

/-! ### A SEND (R93) -/

/-- Settles O26: each selected enable starts low, and SendSeq takes it through two pulses to a settled standing. -/
theorem sendLatchesAreWellTimed : Obligations.SendLatchesAreWellTimed := by
  intro tgt mode v es s hready henables hok
  obtain ⟨ps, w, t₁, hps, hcan, hexec, -, hends⟩ := exec_send_run (mode := mode) (v := v) hready henables hok
  have hchoice := enableChoice_of_enables henables
  obtain ⟨-, -, -, -, -, -, -, hlow⟩ := hready
  refine ⟨t₁, _, hexec, hends, fun e he => ?_⟩
  have henable := hchoice.isEnable he
  have hstart : Tracks s.params.tHold s.trace.length ((latchOf e s).map (·.t)) e .low (begun w ps s) := {
    course := {
      start := le_rfl
      held := by
        intro i hi hword
        rw [show (begun w ps s).trace = s.trace from rfl, List.getElem?_eq_none hi] at hword
        cases hword
      shown := trivial
      latches := by simp [fallStamps, begun, starting]; rfl }
    level := fun _ => (hlow e he).2 }
  obtain ⟨st, hafter, hsettled⟩ := settles_sendSeq hchoice henable mode v .low rfl
  rw [← hps] at hafter
  obtain ⟨⟨-, hheld, -, hlatches⟩, -⟩ := hstart.transmit henable rfl hcan hafter
  rw [Pulse.due_of_settled hsettled] at hheld
  exact ⟨hheld.fallsWellTimed, hlatches⟩

/-! ### A recorded fault stays (R120) -/

theorem recordFault_of_valid {s : State} (h : s.fault.valid = true) (c : FaultCode) (role : Option Role) (id : Option Nat) :
    recordFault c role id s = s.fault := if_pos h

theorem finish_fault_of_valid {s : State} (h : s.fault.valid = true) (f : Finish) : (finish f s).fault = s.fault := by
  cases f with
  | unavailable r => exact recordFault_of_valid h _ _ _
  | done | acquired | broughtUp | closed => rfl

theorem PrimEffect.fault_of_valid {p : Prim} {s t : State} (h : PrimEffect p s t) (hvalid : s.fault.valid = true) :
    t.fault = s.fault := by
  cases h with
  | goesOn plan fin stage htouched =>
    obtain ⟨-, hfault, -⟩ := htouched.untouched
    exact hfault
  | finishes htouched =>
    obtain ⟨-, hfault, -⟩ := htouched.untouched
    exact (finish_fault_of_valid (hfault ▸ hvalid) _).trans hfault
  | faults c role id htouched hrel =>
    obtain ⟨-, hfault, -⟩ := htouched.untouched
    exact (recordFault_of_valid (hfault ▸ hvalid) c role id).trans hfault

theorem Dispatched.fault_of_valid {i : Instr} {d : Draw} {s t : State} (h : Dispatched i d s t)
    (hvalid : s.fault.valid = true) : t.fault = s.fault := by
  cases h with
  | runs p ps f hlegal hprogram => exact (primStep_effect p d (starting (p :: ps) f s)).fault_of_valid hvalid
  | finishes f hlegal hprogram => exact finish_fault_of_valid hvalid f
  | binds hi hphase halias => rfl
  | starts hi hphase => rfl
  | faults c role id hclose hstart => exact recordFault_of_valid hvalid c role id

/-- No step changes a recorded fault. -/
theorem step_fault_of_valid {s t : State} (h : step s = .next t) (hvalid : s.fault.valid = true) : t.fault = s.fault := by
  obtain ⟨-, u, heffect, rfl⟩ := step_effect h
  rw [elapse_fault]
  cases heffect with
  | primitive p ps hbusy hplan => exact (primStep_effect p s.draw s).fault_of_valid hvalid
  | idles hbusy hhost => rfl
  | accepts w rest i hbusy hhost hdecode hword hdispatched => exact hdispatched.fault_of_valid hvalid
  | rejects w rest e hbusy hhost hdecode => exact recordFault_of_valid (s := accepted w { s with host := rest }) hvalid _ _ _

/-- A run without a fault at its end had none at its start. -/
theorem fault_not_valid_of_run {n : Nat} {s t : State} (h : run n s = .next t) (ht : t.fault.valid = false) :
    s.fault.valid = false := by
  induction n generalizing s with
  | zero =>
    cases h
    exact ht
  | succ n ih =>
    rw [run] at h
    split at h
    · next u hu =>
      refine Bool.eq_false_iff.2 fun hvalid => ?_
      have hu' := ih h
      rw [step_fault_of_valid hu hvalid, hvalid] at hu'
      cases hu'
    · cases h
    · cases h

/-! ### Every step of a clean run -/

theorem raise_fault_valid (c : FaultCode) (role : Option Role) (id : Option Nat) (s : State) :
    (raise c role id s).fault.valid = true := recordFault_valid c role id s

/-- The enable e stands somewhere from which the plan leads to a settled standing; every fall and record of the run counts. -/
def OnCourse (T : Nat) (e : Role) (s : State) : Prop :=
  ∃ st st', Tracks T 0 [] e st s ∧ s.plan.foldlM (Pulse.next e) st = some st' ∧ st'.settled = true

theorem OnCourse.elapse {T : Nat} {e : Role} {s : State} (h : OnCourse T e s) (d : Draw) : OnCourse T e (elapse d s) := by
  obtain ⟨st, st', htracks, hplan⟩ := h
  exact ⟨st, st', htracks.elapse d, hplan⟩

section
variable {T : Nat} {e : Role} {st : Pulse} {s : State}

/-- A settled enable is on its course under every plan that leaves it settled. -/
theorem Tracks.onCourse (h : Tracks T 0 [] e st s) (hst : st.settled = true) {t : State} (hpin : t.pin = s.pin)
    (hrecords : recordsOf t = recordsOf s) (hplan : Settles e t.plan) : OnCourse T e t := by
  obtain ⟨st', hafter, hst'⟩ := hplan st hst
  exact ⟨st, st', h.of_same hpin hrecords, hafter, hst'⟩

theorem settles_nil (e : Role) : Settles e [] := settles_of_not_transmission nofun

theorem continueWith_plan (plan : List Prim) (f : Finish) (s : State) : (continueWith plan f s).plan = plan := by
  cases plan with
  | nil =>
    obtain ⟨-, -, -, hplan, -⟩ := finish_ends f s
    exact hplan
  | cons p ps => rfl

theorem advance_plan (s : State) : (advance s).plan = s.plan.tail := continueWith_plan s.plan.tail s.fin s

/-- The primitive at hand is done, and the standing is the next one. -/
theorem Tracks.advance {p : Prim} {ps : List Prim} {st' : Pulse} {u : State} (h : Tracks T 0 [] e st u)
    (hplan : u.plan = p :: ps) (hps : ps.foldlM (Pulse.next e) st = some st') (hst' : st'.settled = true) :
    OnCourse T e (advance u) := by
  refine ⟨st, st', h.of_same (advance_pin u) (recordsOf_advance u), ?_, hst'⟩
  rw [advance_plan, hplan]
  exact hps

/-- The word of a UACQ or a UREL leaves a settled enable as it is. -/
theorem Tracks.emit (h : Tracks T 0 [] e st s) (hst : st.settled = true) {p : Prim} (hp : p.isSetup = false)
    (hedge : ∀ b, p ≠ .wr e b) : Tracks T 0 [] e st (emit (encode p.toInstr) s) :=
  ⟨h.course_word hedge hp fun _ => hst, h.level⟩

theorem Tracks.observe (h : Tracks T 0 [] e st s) {r : Role} {edge : Edge} {d : Draw}
    (hlatch : latchOf e (observe r edge d s) = latchOf e s) : Tracks T 0 [] e st (observe r edge d s) where
  course := by
    rw [observe_trace, observe_now, hlatch]
    exact h.course
  level := by
    rw [observe_pin]
    exact h.level

/-- A settled enable that is set to a low or an unacquired pin stays as it is, and so does one that is not set. -/
theorem Tracks.setPin (h : Tracks T 0 [] e st s) (hst : st.settled = true) (r : Role) {pin : Pin}
    (hpin : pin.acq = true → pin.lvl = some false) : Tracks T 0 [] e st (setPin r pin s) where
  course := h.course
  level := by
    rw [setPin_pin, PerRole.get_set]
    split
    · rw [Pulse.isHigh_of_settled hst]
      exact hpin
    · exact h.level

/-- An Acquire that fails has releases to come, or has faulted (R103, R104). -/
theorem Tracks.acquireFailed (h : Tracks T 0 [] e st s) (hst : st.settled = true) (r : Role) :
    OnCourse T e (acquireFailed r s) := by
  refine h.onCourse hst (continueWith_pin _ _ s) (recordsOf_acquireFailed r s) ?_
  rw [Machine.acquireFailed, continueWith_plan]
  refine settles_of_not_transmission fun p hp => ?_
  unfold unwindSeq at hp
  split at hp
  · obtain ⟨q, -, rfl⟩ := List.mem_map.1 hp
    exact ⟨q, .inr rfl⟩
  · cases hp

end

/-- The settled standing before an acquire or a release, and the way on. -/
theorem settled_of_next {e : Role} {st st' : Pulse} {p : Prim} {ps : List Prim} (hp : (∃ r, p = .acq r) ∨ ∃ r, p = .rel r)
    (h : (p :: ps).foldlM (Pulse.next e) st = some st') : st.settled = true ∧ ps.foldlM (Pulse.next e) st = some st' := by
  rw [List.foldlM_cons] at h
  obtain ⟨st₁, hnext, hrest⟩ := Option.bind_eq_some_iff.1 h
  obtain ⟨hst, rfl⟩ : st.settled = true ∧ st = st₁ := by
    rcases hp with ⟨r, rfl⟩ | ⟨r, rfl⟩ <;> simpa [Pulse.next] using hnext
  exact ⟨hst, hrest⟩

theorem acquireStep_onCourse {T : Nat} {e : Role} {s : State} {r : Role} {ps : List Prim} (h : OnCourse T e s)
    (hplan : s.plan = .acq r :: ps) (d : Draw) : OnCourse T e (acquireStep r d s) := by
  obtain ⟨st, st', htracks, hafter, hst'⟩ := h
  have ⟨hst, hrest⟩ := settled_of_next (.inl ⟨r, rfl⟩) (hplan ▸ hafter)
  have hemit : Tracks T 0 [] e st (emit (encode (.uacq r)) s) := htracks.emit hst (p := .acq r) rfl nofun
  rcases acquireStep_cases r d s with ⟨-, -, ht⟩ | ⟨-, -, ht⟩ | ⟨-, -, ht⟩ | ⟨-, -, ht⟩ | ⟨-, ht⟩ <;> rw [ht]
  · exact ⟨st, st', hemit.of_same rfl rfl, hafter, hst'⟩
  · exact hemit.acquireFailed hst r
  · exact ⟨st, st', htracks.of_same rfl rfl, hafter, hst'⟩
  · exact (htracks.setPin hst r fun _ => rfl).advance hplan hrest hst'
  · exact htracks.acquireFailed hst r

theorem releaseStep_onCourse {T : Nat} {e : Role} {s : State} {r : Role} {ps : List Prim} (he : IsEnable e)
    (h : OnCourse T e s) (hplan : s.plan = .rel r :: ps) (d : Draw) : OnCourse T e (releaseStep r d s) := by
  obtain ⟨st, st', htracks, hafter, hst'⟩ := h
  have ⟨hst, hrest⟩ := settled_of_next (.inr ⟨r, rfl⟩) (hplan ▸ hafter)
  have hemit : Tracks T 0 [] e st (emit (encode (.urel r)) s) := htracks.emit hst (p := .rel r) rfl nofun
  rcases releaseStep_cases r d s with ⟨-, hacq, ht⟩ | ⟨-, -, ht⟩ | ⟨-, ht⟩ | ⟨-, ht⟩ <;> rw [ht]
  · have hlatch : latchOf e (observe r (releaseEdge (s.pin.get r).lvl) d (emit (encode (.urel r)) s)) =
        latchOf e (emit (encode (.urel r)) s) := by
      by_cases hr : r = e
      · subst hr
        rw [htracks.level hacq, Pulse.isHigh_of_settled hst]
        rfl
      · exact latchOf_observe_ne he hr _ d _
    refine ⟨st, st', (hemit.observe hlatch).of_same rfl rfl, ?_, hst'⟩
    rw [nextStage_plan, observe_plan]
    exact hafter
  · exact hemit.advance hplan hrest hst'
  · exact ⟨st, st', htracks.of_same rfl rfl, hafter, hst'⟩
  · exact (htracks.setPin hst r (pin := Pin.idle) nofun).advance hplan hrest hst'

/-- A write or a delay that does not fault moves on as a transmission does. -/
theorem OnCourse.performed {T : Nat} {e : Role} {s : State} {p : Prim} {ps : List Prim} (he : IsEnable e)
    (hT : s.params.tHold = T) (h : OnCourse T e s) (hplan : s.plan = p :: ps) (hp : Writable s p) :
    OnCourse T e (advance (performed p s)) := by
  obtain ⟨st, st', htracks, hafter, hst'⟩ := h
  rw [hplan, List.foldlM_cons] at hafter
  obtain ⟨st₁, hnext, hrest⟩ := Option.bind_eq_some_iff.1 hafter
  refine (htracks.performed he hT hnext hp).advance (p := p) ?_ hrest hst'
  obtain ⟨pin, trace, now, l1, l2, script, ix, hs⟩ := performed_eq p s
  rw [hs]
  exact hplan

/-- A primitive step that does not fault keeps an enable on its course. -/
theorem primStep_onCourse {T : Nat} {e : Role} {s : State} {p : Prim} {ps : List Prim} (he : IsEnable e)
    (hT : s.params.tHold = T) (h : OnCourse T e s) (hplan : s.plan = p :: ps)
    (hclean : (primStep p s.draw s).fault.valid = false) : OnCourse T e (elapse s.draw (primStep p s.draw s)) := by
  have hfaults (c : FaultCode) (role : Option Role) (id : Option Nat) (u : State)
      (hu : primStep p s.draw s = raise c role id u) : False := by
    rw [hu, raise_fault_valid] at hclean
    cases hclean
  cases p with
  | acq r => exact (acquireStep_onCourse h hplan s.draw).elapse s.draw
  | wr r b =>
    rcases writeStep_cases r b s.draw s with ⟨hacq, hok, -⟩ | ⟨-, -, ht⟩ | ⟨-, ht⟩
    · rw [primStep_eq_advance_written (p := .wr r b) hacq hok, elapse_advance]
      exact h.performed he hT hplan hacq
    · exact (hfaults _ _ _ _ ht).elim
    · exact (hfaults _ _ _ _ ht).elim
  | rel r => exact (releaseStep_onCourse he h hplan s.draw).elapse s.draw
  | dly c =>
    show OnCourse T e (elapse s.draw (advance (written (.dly c) s.draw s)))
    rw [elapse_advance]
    exact h.performed he hT hplan trivial

/-- The programs of the commands leave both enables settled (R89, R95, R103, R105, R110). -/
theorem settles_programOf {i : Instr} {s : State} {plan : List Prim} {f : Finish} {e : Role} (he : IsEnable e)
    (h : programOf i s = some (plan, f)) : Settles e plan := by
  cases i with
  | bind | start | uacq _ | uwr _ _ | urel _ | udly _ => cases h
  | acqall =>
    cases h
    refine settles_of_not_transmission fun p hp => ?_
    obtain ⟨r, -, rfl⟩ := List.mem_map.1 hp
    exact ⟨r, .inl rfl⟩
  | bringup =>
    obtain ⟨es, hes, heq⟩ := Option.map_eq_some_iff.1 h
    cases heq
    have hsend (v : Byte) := settles_sendSeq (enableChoice_of_enables hes) he .instruction v
    unfold bringupSeq
    exact settles_append (settles_append (settles_append (settles_append (settles_append
      (hsend _) (settles_dly e _)) (hsend _)) (settles_dly e _)) (hsend _)) (settles_dly e _)
  | send tgt mode v =>
    obtain ⟨es, hes, heq⟩ := Option.map_eq_some_iff.1 h
    cases heq
    exact settles_sendSeq (enableChoice_of_enables hes) he mode v
  | bl b =>
    cases h
    split
    · intro st hst
      refine ⟨st, ?_, hst⟩
      rcases he with rfl | rfl <;> rfl
    · exact settles_nil e
  | close =>
    have hplan := congrArg Prod.fst (Option.some.inj h)
    split at hplan
    · cases hplan
      exact settles_nil e
    · cases hplan
      refine settles_of_not_transmission fun p hp => ?_
      obtain ⟨r, -, rfl⟩ := List.mem_map.1 hp
      exact ⟨r, .inr rfl⟩

/-- Dispatch without a fault starts a command on its course, or does all of it. -/
theorem Dispatched.onCourse {T : Nat} {e : Role} {i : Instr} {st : Pulse} {s u : State} (he : IsEnable e)
    (hT : s.params.tHold = T) (h : Tracks T 0 [] e st s) (hst : st.settled = true) (hu : Dispatched i s.draw s u)
    (hclean : u.fault.valid = false) : OnCourse T e (elapse s.draw u) := by
  cases hu with
  | runs p ps f hlegal hprogram =>
    have hstarting : OnCourse T e (starting (p :: ps) f s) := h.onCourse hst rfl rfl (settles_programOf he hprogram)
    exact primStep_onCourse (s := starting (p :: ps) f s) he hT hstarting rfl hclean
  | finishes f hlegal hprogram =>
    obtain ⟨hpin, -⟩ := finish_frame f s
    obtain ⟨-, -, -, hplan, -⟩ := finish_ends f s
    exact (h.onCourse hst hpin (recordsOf_finish f s) (hplan ▸ settles_nil e)).elapse s.draw
  | binds hi hphase halias =>
    exact (h.onCourse (t := endCommand respOk (bindAll s)) hst rfl rfl (settles_nil e)).elapse s.draw
  | starts hi hphase => exact (h.onCourse (t := startRule s) hst rfl rfl (settles_nil e)).elapse s.draw
  | faults c role id hclose hstart => cases (raise_fault_valid c role id s).symm.trans hclean

/-- Between commands an enable on its course is settled. -/
theorem OnCourse.settled {T : Nat} {e : Role} {s : State} (h : OnCourse T e s) (hplan : s.plan = []) :
    ∃ st, Tracks T 0 [] e st s ∧ st.settled = true := by
  obtain ⟨st, st', htracks, hafter, hst'⟩ := h
  rw [hplan] at hafter
  obtain rfl : st = st' := Option.some.inj hafter
  exact ⟨st, htracks, hst'⟩

/-- A step that does not fault keeps an enable on its course. -/
theorem step_onCourse {T : Nat} {e : Role} {s t : State} (he : IsEnable e) (hT : s.params.tHold = T) (hinv : Invariant s)
    (h : OnCourse T e s) (hstep : step s = .next t) (hclean : t.fault.valid = false) : OnCourse T e t := by
  obtain ⟨-, u, heffect, rfl⟩ := step_effect hstep
  have hsettled (hidle : s.busy = false) : ∃ st, Tracks T 0 [] e st s ∧ st.settled = true := by
    obtain ⟨-, -, hplan, -⟩ := hinv.idle hidle
    exact h.settled hplan
  cases heffect with
  | primitive p ps hbusy hplan => exact primStep_onCourse he hT h hplan hclean
  | idles hbusy hhost =>
    obtain ⟨st, st', htracks, hafter⟩ := h
    exact OnCourse.elapse (s := { s with host := s.host.tail }) ⟨st, st', htracks.of_same rfl rfl, hafter⟩ s.draw
  | accepts w rest i hbusy hhost hdecode hword hdispatched =>
    obtain ⟨st, htracks, hst⟩ := hsettled hbusy
    have haccepted : Tracks T 0 [] e st (accepted w { s with host := rest }) := htracks.of_same rfl rfl
    exact Dispatched.onCourse (s := accepted w { s with host := rest }) he hT haccepted hst hdispatched hclean
  | rejects w rest e hbusy hhost hdecode => cases (raise_fault_valid _ _ _ _).symm.trans hclean

theorem instanceOf_onCourse (params : Params) (inputs : Inputs) (host : List HostMove) (script : List Draw) (ix : Nat)
    {e : Role} (he : IsEnable e) : OnCourse params.tHold e (instanceOf params inputs host script ix) := by
  refine ⟨.low, .low, ⟨⟨le_rfl, ?_, trivial, ?_⟩, ?_⟩, rfl, rfl⟩
  · intro i _ hword
    cases hword
  · rcases he with rfl | rfl <;> rfl
  · rcases he with rfl | rfl <;> nofun

/-- A run without a fault keeps an enable on its course. -/
theorem run_onCourse {T : Nat} {e : Role} {n : Nat} {s t : State} (he : IsEnable e) (hT : s.params.tHold = T)
    (hinv : Invariant s) (h : OnCourse T e s) (hrun : run n s = .next t) (hclean : t.fault.valid = false) :
    OnCourse T e t ∧ Invariant t := by
  induction n generalizing s with
  | zero =>
    cases hrun
    exact ⟨h, hinv⟩
  | succ n ih =>
    rw [run] at hrun
    split at hrun
    · next u hu =>
      obtain ⟨hparams, -⟩ := argumentsNeverChange s u hu
      have hcourse := step_onCourse he hT hinv h hu (fault_not_valid_of_run hrun hclean)
      exact ih (by rw [hparams, hT]) (stepKeepsInvariant s u hinv hu) hcourse hrun
    · cases hrun
    · cases hrun

/-- Settles O60: every step of a clean run keeps both enables on their course, and at its end they are settled. -/
theorem cleanRunLatchesAreWellTimed : Obligations.CleanRunLatchesAreWellTimed := by
  rintro params inputs host script ix n t ⟨⟨hrun, ⟨-, hidle⟩, -⟩, hclean⟩ e he
  obtain ⟨hcourse, hinv⟩ := run_onCourse he rfl (instanceOf_invariant params inputs host script ix)
    (instanceOf_onCourse params inputs host script ix he) hrun hclean
  obtain ⟨-, -, hplan, -⟩ := hinv.idle hidle
  obtain ⟨st, ⟨⟨-, hheld, -, hlatches⟩, -⟩, hst⟩ := hcourse.settled hplan
  rw [Pulse.due_of_settled hst] at hheld
  exact ⟨hlatches, hheld.fallsWellTimed⟩

end Sys2Proof.Machine

/-! # BIND, START, and an Acquire that fails with P_UNWIND

The lifecycle steps that are one computation (R101, R102, R104, R107). -/

namespace Sys2Proof.Machine

/-! ### Unwinding (R104) -/

/-- What a filter puts before an element of a list without repetitions is the filter of what stands before it. -/
theorem filter_takeWhile_of_filter {l before after : List Role} {p : Role → Bool} {r : Role} (hnodup : l.Nodup)
    (h : l.filter p = before ++ r :: after) : (l.takeWhile (fun x => x != r)).filter p = before := by
  have hr : r ∈ l.filter p := by simp [h]
  obtain ⟨hmem, hpr⟩ := List.mem_filter.1 hr
  obtain ⟨left, right, rfl⟩ := List.append_of_mem hmem
  obtain ⟨hleft, hright⟩ : r ∉ left ∧ r ∉ right := by
    obtain ⟨-, hcons, hdisjoint⟩ := List.nodup_append.1 hnodup
    exact ⟨fun hr => hdisjoint r hr r List.mem_cons_self rfl, (List.nodup_cons.1 hcons).1⟩
  have htake : (left ++ r :: right).takeWhile (fun x => x != r) = left := by
    rw [List.takeWhile_append_of_pos fun x hx => bne_iff_ne.2 (ne_of_mem_of_not_mem hx hleft)]
    simp
  rw [List.filter_append, List.filter_cons_of_pos hpr] at h
  rw [htake]
  exact ((List.append_cons_inj_of_notMem (mt List.mem_of_mem_filter hleft) (mt List.mem_of_mem_filter hright)).1 h).1

/-- With P_UNWIND the roles acquired before r are released in reverse (R104). -/
theorem unwindSeq_of_roles {params : Params} {active : PerRole Bool} {r : Role} {before after : List Role}
    (hunwind : params.unwind = true) (hroles : acqOrder.filter active.get = before ++ r :: after) :
    unwindSeq params active r = before.reverse.map .rel := by
  rw [unwindSeq, if_pos hunwind, filter_takeWhile_of_filter (by decide) hroles]

/-- Settles O12: a failed request goes on with the unwinding sequence, or faults when that is empty. -/
theorem failedAcquireUnwinds : Obligations.FailedAcquireUnwinds := by
  intro s r before after hunwind hroles hfails
  obtain ⟨u, hstep, hu, hpin, htrace⟩ := acquireStep_fails (r := r) hfails
  have hfaulted := hu.raise_faulted .pinUnavailable (some r) (s.bind.get r) s.draw
  have ⟨hbusy, hcur, hupc, hresp⟩ := hu.command
  have ⟨hphase, hfault, hhooks, hbinding, hworld⟩ := hu.untouched
  have ⟨_, _, hactive, hbind⟩ := hbinding
  have ⟨hparams, _, _⟩ := hworld
  rw [acquireFailed, hparams, hactive, unwindSeq_of_roles hunwind hroles] at hstep
  cases hplan : before.reverse.map Prim.rel with
  | nil =>
    obtain rfl : before = [] := by simpa using hplan
    rw [hplan, continueWith_nil, finish, hbind] at hstep
    obtain ⟨hexec, hlatches, htime⟩ := exec_uacq hstep
    exact ⟨_, hexec, hpin, htrace, hlatches, hbinding, hhooks, hworld, htime, fun h => absurd rfl h, fun _ => hfaulted⟩
  | cons p ps =>
    have hbefore : before ≠ [] := by
      rintro rfl
      cases hplan
    rw [hplan, continueWith_cons] at hstep
    obtain ⟨hexec, hlatches, htime⟩ := exec_uacq hstep
    exact ⟨_, hexec, hpin, htrace, hlatches, hbinding, hhooks, hworld, htime,
      fun _ => ⟨rfl, rfl, rfl, congrArg (· + 1) hupc, hbusy, hcur, hresp, hphase, hfault⟩, fun h => absurd h hbefore⟩

/-! ### A command in its phase -/

/-- An idle block takes a legal command into its own rule (R67). -/
theorem exec_legal {i : Instr} {s : State} (hcommand : isCommand i = true) (hidle : s.busy = false)
    (hlegal : legal i s.phase = true) :
    exec i s = .next (elapse s.draw (ruleOf i s.draw (accepted (encode i) s))) := by
  rw [exec_command hcommand, accept_idle hidle, if_pos hlegal]

/-! ### BIND (R101, R102, R117) -/

/-- The scan passes roles with distinct ids that it has not seen, and has seen them then (R102). -/
theorem aliasScan_append {res : Role → Nat} {before : List Role} {seen : List Nat} (after : List Role)
    (hdistinct : before.Pairwise (fun a b => res a ≠ res b)) (hnew : ∀ r ∈ before, res r ∉ seen) :
    aliasScan res seen (before ++ after) = aliasScan res ((before.map res).reverse ++ seen) after := by
  induction before generalizing seen with
  | nil => rfl
  | cons r before ih =>
    obtain ⟨hr, hdistinct⟩ := List.pairwise_cons.1 hdistinct
    obtain ⟨hseen, hnew⟩ := List.forall_mem_cons.1 hnew
    have hnew' : ∀ q ∈ before, res q ∉ res r :: seen := fun q hq =>
      List.not_mem_cons_of_ne_of_not_mem (Ne.symm (hr q hq)) (hnew q hq)
    rw [List.cons_append, aliasScan, if_neg (by simpa using hseen), ih hdistinct hnew']
    simp

/-- Active roles with distinct ids raise no BindingAlias (R102). -/
theorem aliasCheck_of_distinct {act : Role → Bool} {res : Role → Nat}
    (h : ∀ r q, r ≠ q → act r = true → act q = true → res r ≠ res q) : aliasCheck act res = none := by
  have hnodup : (acqOrder.filter act).Nodup := List.Nodup.filter act (by decide)
  have hdistinct : (acqOrder.filter act).Pairwise (fun a b => res a ≠ res b) :=
    hnodup.pairwise_of_forall_ne fun r hr q hq hne => h r q hne (List.mem_filter.1 hr).2 (List.mem_filter.1 hq).2
  rw [aliasCheck, ← List.append_nil (acqOrder.filter act), aliasScan_append [] hdistinct fun _ _ => List.not_mem_nil]
  rfl

/-- The first role on the id of an earlier one is reported (R102). -/
theorem aliasCheck_of_alias {act : Role → Bool} {res : Role → Nat} {before after : List Role} {r : Role}
    (hroles : acqOrder.filter act = before ++ r :: after) (hdistinct : before.Pairwise (fun a b => res a ≠ res b))
    (halias : ∃ q ∈ before, res q = res r) : aliasCheck act res = some r := by
  rw [aliasCheck, hroles, aliasScan_append (r :: after) hdistinct fun _ _ => List.not_mem_nil, aliasScan, if_pos]
  simpa using halias

/-- BIND in Unconfigured (R67, R101). -/
theorem exec_bind {s : State} (hidle : s.busy = false) (hphase : s.phase = .unconfigured) :
    exec .bind s = .next (elapse s.draw (bindRule s.draw (accepted 0x1000 s))) :=
  exec_legal rfl hidle (by simp [legal, hphase])

/-- BIND's allocation succeeds and no id is shared: the whole binding is written (R101). -/
theorem exec_bind_binds {s : State} (hidle : s.busy = false) (hphase : s.phase = .unconfigured) (hok : s.draw.allocOk = true)
    (hids : aliasCheck (resolveActive s.inputs s.params) (resolve s.inputs s.params) = none) :
    exec .bind s = .next (elapse s.draw (endCommand respOk (bindAll (accepted 0x1000 s)))) := by
  rw [exec_bind hidle hphase]
  simp only [bindRule, hok, if_true, accepted_inputs, accepted_params, hids]

/-- Settles O30: the scan reports no role, so BIND writes what the inputs and the parameters resolve to. -/
theorem bindResolvesConfiguration : Obligations.BindResolvesConfiguration := by
  intro s hidle hphase hok hdistinct
  have hexec := exec_bind_binds hidle hphase hok (aliasCheck_of_distinct hdistinct)
  refine ⟨_, hexec, endCommand_ended _ _ _, rfl, rfl, rfl, fun r hen2 hbl => ?_, ?_, rfl, fun r => ?_, rfl, rfl, rfl, rfl,
    ⟨rfl, rfl⟩, ⟨rfl, rfl, rfl⟩, rfl, rfl, rfl⟩
  · cases r with
    | en2 => exact absurd rfl hen2
    | bl => exact absurd rfl hbl
    | en | rs | d4 | d5 | d6 | d7 => rfl
  · show decide (controllerCount s.inputs = .two) = s.inputs.cfgMulti
    cases hmulti : s.inputs.cfgMulti <;> simp [controllerCount, hmulti]
  · simp only [elapse_bind, elapse_active, endCommand_bind, endCommand_active, bindAll, PerRole.get_ofFn]
    rfl

/-- Settles O31: the scan passes the distinct roles before r and reports r. -/
theorem bindReportsFirstAlias : Obligations.BindReportsFirstAlias := by
  intro s before after r hidle hphase hok hroles hdistinct halias
  have hexec := exec_bind hidle hphase
  have hids : aliasCheck (resolveActive s.inputs s.params) (resolve s.inputs s.params) = some r :=
    aliasCheck_of_alias hroles hdistinct halias
  simp only [bindRule, hok, if_true, accepted_inputs, accepted_params, hids] at hexec
  exact ⟨_, hexec, raise_accepted_faulted _ _ _ _ _ s, ⟨rfl, rfl, rfl, rfl⟩, rfl, rfl, rfl, ⟨rfl, rfl⟩, ⟨rfl, rfl, rfl⟩,
    rfl, rfl, rfl⟩

/-- Settles O32: BIND looks at the allocation before the ids. -/
theorem allocationFailureComesFirst : Obligations.AllocationFailureComesFirst := by
  intro s hidle hphase hfail
  have hexec := exec_bind hidle hphase
  rw [bindRule, if_neg (by simp [hfail])] at hexec
  exact ⟨_, hexec, raise_accepted_faulted _ _ _ _ _ s, ⟨rfl, rfl, rfl, rfl⟩, rfl, rfl, rfl, ⟨rfl, rfl⟩, ⟨rfl, rfl, rfl⟩,
    rfl, rfl, rfl⟩

/-! ### START (R107) -/

theorem hooksOf_eq (b : Bool) : hooksOf b = if b then 0b11 else 0b01 := by
  cases b <;> rfl

/-- Settles O35: IllegalPhase elsewhere; in ControllerBroughtUp one computation. -/
theorem startRegistersHooks : Obligations.StartRegistersHooks := by
  refine ⟨fun s hidle hphase => ?_, fun s hidle hphase => ?_⟩
  · exact ⟨_, exec_illegalPhase rfl hidle (by simp [legal, hphase]), raise_accepted_faulted _ _ _ _ _ s, rfl, rfl, rfl,
      ⟨rfl, rfl⟩, ⟨rfl, rfl, rfl, rfl⟩, ⟨rfl, rfl, rfl⟩, rfl, rfl, rfl⟩
  · exact ⟨_, exec_legal rfl hidle (by simp [legal, hphase]), endCommand_ended _ _ _, rfl, hooksOf_eq s.active.bl, rfl, rfl,
      rfl, ⟨rfl, rfl⟩, ⟨rfl, rfl, rfl, rfl⟩, ⟨rfl, rfl, rfl⟩, rfl, rfl, rfl⟩

end Sys2Proof.Machine

/-! # Commands that are programs, and how many steps they take

The acceptance step of a command with a program is the step of its first primitive, so a command is run from the state in which
the program starts. `stepsLeft` bounds the steps that are left of a running command, and every step of it lowers the bound. -/

namespace Sys2Proof.Machine

/-! ### Draws along a run (R10) -/

theorem step_drawAt {s t : State} (h : step s = .next t) (k : Nat) : t.drawAt k = s.drawAt (k + 1) := by
  obtain ⟨-, -, hscript, hix⟩ := timeAdvancesByTheDraw s t h
  exact (drawAt_congr (s := elapse s.draw s) hscript hix k).trans (drawAt_elapse s.draw s k)

theorem run_drawAt {n : Nat} {s t : State} (h : run n s = .next t) (k : Nat) : t.drawAt k = s.drawAt (k + n) := by
  induction n generalizing s with
  | zero =>
    cases h
    rfl
  | succ n ih =>
    rw [run] at h
    split at h
    · next u hu => rw [ih h, step_drawAt hu, Nat.add_assoc]
    · cases h
    · cases h

theorem RequestsSucceed.mono {m n : Nat} {s : State} (h : RequestsSucceed n s) (hmn : m ≤ n) : RequestsSucceed m s :=
  fun j hj => h j (hj.trans_le hmn)

theorem RequestsSucceed.after {m n k : Nat} {s t : State} (h : RequestsSucceed m s) (hrun : run n s = .next t)
    (hm : n + k ≤ m) : RequestsSucceed k t := by
  intro j hj
  rw [run_drawAt hrun]
  exact h (j + n) (by omega)

theorem RequestsSucceed.writes {n : Nat} {s : State} (h : RequestsSucceed n s) : WritesSucceed n s := by
  intro k hk
  obtain ⟨-, -, -, -, hwrite⟩ := h k hk
  exact hwrite

/-! ### The acceptance of a program (R13, R67) -/

theorem programOf_accepted (i : Instr) (w : Word16) (s : State) : programOf i (accepted w s) = programOf i s := by
  cases i <;> rfl

/-- A command with a program begins with it. -/
theorem ruleOf_of_program {i : Instr} {s : State} {plan : List Prim} {f : Finish} (d : Draw)
    (h : programOf i s = some (plan, f)) : ruleOf i d s = begin plan f d s := by
  cases i with
  | bind | start | uacq _ | uwr _ _ | urel _ | udly _ => cases h
  | acqall | bl _ =>
    cases h
    rfl
  | bringup =>
    obtain ⟨es, hes, heq⟩ := Option.map_eq_some_iff.1 h
    cases heq
    simp only [ruleOf, bringupRule, hes]
  | send tgt mode v =>
    obtain ⟨es, hes, heq⟩ := Option.map_eq_some_iff.1 h
    cases heq
    simp only [ruleOf, sendRule, hes]
  | close =>
    show closeRule d s = begin plan f d s
    by_cases hphase : s.phase = .released
    · rw [programOf, if_pos hphase] at h
      cases h
      exact if_pos hphase
    · rw [programOf, if_neg hphase] at h
      cases h
      exact if_neg hphase

/-- The first primitive's step from where the program starts. -/
theorem step_starting {p : Prim} {ps : List Prim} {f : Finish} {s : State} (hphase : s.phase ≠ .reserved)
    (hbusy : s.busy = true) :
    step (starting (p :: ps) f s) = .next (elapse s.draw (primStep p s.draw (starting (p :: ps) f s))) :=
  (step_eq_exec_prim (s := starting (p :: ps) f s) hphase hbusy rfl).trans (exec_prim p _)

/-- Runs from states with one next step are one run. -/
theorem run_succ_congr {s s' : State} (h : step s = step s') (k : Nat) : run (k + 1) s = run (k + 1) s' := by
  simp only [run, h]

/-- The acceptance of a program is the step of its first primitive. -/
theorem exec_program {i : Instr} {s : State} {p : Prim} {ps : List Prim} {f : Finish} (hphase : s.phase ≠ .reserved)
    (hidle : s.busy = false) (hlegal : legal i s.phase = true) (hprogram : programOf i s = some (p :: ps, f)) :
    exec i s = step (starting (p :: ps) f (accepted (encode i) s)) := by
  have hcommand : isCommand i = true := by
    cases i with
    | bind | acqall | bringup | start | send _ _ _ | bl _ | close => rfl
    | uacq _ | uwr _ _ | urel _ | udly _ => cases hprogram
  rw [← programOf_accepted i (encode i)] at hprogram
  rw [exec_legal hcommand hidle hlegal, ruleOf_of_program s.draw hprogram]
  exact (step_starting (s := accepted (encode i) s) hphase rfl).symm

/-- A program starts in a state of the invariant. -/
theorem Accepted.starting_invariant {i : Instr} {s : State} {p : Prim} {ps : List Prim} {f : Finish}
    (h : Accepted (encode i) s) (hlegal : legal i s.phase = true) (hprogram : programOf i s = some (p :: ps, f)) :
    Invariant (starting (p :: ps) f s) := by
  have hstarting : Steady (starting (p :: ps) f s) := h.steady.moved s.busy s.cur s.upc (p :: ps) 0 f s.host
  rcases h.inCommand hlegal hprogram with hcommand | ⟨-, hplan, -⟩
  · exact hcommand.invariant hstarting nofun
  · cases hplan

/-! ### The steps that are left -/

/-- The steps of a primitive that does not fail: its OS requests, or a delay's one step (R13, R81 to R84). -/
def Prim.requests : Prim → Nat
  | .acq _ => 3
  | .rel _ => 3
  | .wr _ _ => 1
  | .dly _ => 1

/-- The steps of a sequence of primitives. -/
def planSteps (ps : List Prim) : Nat := (ps.map Prim.requests).sum

/-- The steps that an ACQALL may need to unwind: all roles but the one that fails (R104). -/
def unwindSteps (active : PerRole Bool) : Finish → Nat
  | .acquired => 3 * ((acqOrder.filter active.get).length - 1)
  | .unavailable _ => 0
  | .broughtUp => 0
  | .done => 0
  | .closed => 0

/-- At most so many steps are left of the running command. -/
def stepsLeft (s : State) : Nat := planSteps s.plan - s.stage + unwindSteps s.active s.fin

theorem planSteps_cons (p : Prim) (ps : List Prim) : planSteps (p :: ps) = p.requests + planSteps ps := List.sum_cons

theorem planSteps_append (ps qs : List Prim) : planSteps (ps ++ qs) = planSteps ps + planSteps qs := by
  simp [planSteps]

theorem planSteps_map {f : Role → Prim} (hf : ∀ r, (f r).requests = 3) (roles : List Role) :
    planSteps (roles.map f) = 3 * roles.length := by
  induction roles with
  | nil => rfl
  | cons r roles ih =>
    rw [List.map_cons, planSteps_cons, hf, ih, List.length_cons]
    omega

theorem planSteps_of_transmission {active : PerRole Bool} {ps : List Prim} (h : ∀ p ∈ ps, isTransmission active p = true) :
    planSteps ps = ps.length := by
  induction ps with
  | nil => rfl
  | cons p ps ih =>
    obtain ⟨hp, hps⟩ := List.forall_mem_cons.1 h
    have hone : p.requests = 1 := by
      cases p with
      | wr _ _ | dly _ => rfl
      | acq _ | rel _ => cases hp
    rw [planSteps_cons, hone, ih hps, List.length_cons, Nat.add_comm]

/-- The current primitive has a step left. -/
theorem InCommand.stage_lt {s : State} {p : Prim} {ps : List Prim} (h : InCommand s) (hplan : s.plan = p :: ps) :
    s.stage < p.requests := by
  cases h with
  | acquiring before after h =>
    cases after with
    | nil => cases h.plan.symm.trans hplan
    | cons r after =>
      cases h.plan.symm.trans hplan
      exact h.stage
  | releasing h =>
    obtain ⟨r, rfl, -⟩ := h.plan p (hplan ▸ List.mem_cons_self)
    exact h.stage
  | transmitting h =>
    have hp := h.plan p (hplan ▸ List.mem_cons_self)
    rw [h.stage]
    cases p with
    | wr _ _ | dly _ => exact Nat.one_pos
    | acq _ | rel _ => cases hp

theorem stepsLeft_pos {s : State} {p : Prim} {ps : List Prim} (hplan : s.plan = p :: ps) (hstage : s.stage < p.requests) :
    0 < stepsLeft s := by
  rw [stepsLeft, hplan, planSteps_cons]
  omega

section
variable {s u : State} {p q : Prim} {ps : List Prim}

/-- The next request leaves a step less. -/
theorem Touched.stepsLeft_nextStage (h : Touched p s u) (hplan : s.plan = q :: ps) (hstage : s.stage < q.requests) :
    stepsLeft (Machine.nextStage u) < stepsLeft s := by
  obtain ⟨-, -, -, ⟨-, -, hactive, -⟩, -⟩ := h.untouched
  obtain ⟨hplan', hstage', hfin⟩ := h.position
  simp only [stepsLeft, nextStage_plan, nextStage_stage, nextStage_fin, nextStage_active, hactive, hplan', hstage', hfin, hplan,
    planSteps_cons]
  omega

/-- So does the next primitive. -/
theorem Touched.stepsLeft_advance (h : Touched p s u) (hplan : s.plan = q :: ps) (hstage : s.stage < q.requests)
    (hbusy : (Machine.advance u).busy = true) : stepsLeft (Machine.advance u) < stepsLeft s := by
  obtain ⟨-, -, -, ⟨-, -, hactive, -⟩, -⟩ := h.untouched
  obtain ⟨hplan', -, hfin⟩ := h.position
  rw [hplan] at hplan'
  cases ps with
  | nil =>
    rw [advance_last hplan', (finish_ends _ _).1] at hbusy
    cases hbusy
  | cons q' ps =>
    rw [advance_more hplan']
    simp only [stepsLeft, hactive, hfin, hplan, planSteps_cons q]
    omega

/-- An Acquire that fails leaves at most the releases of the roles before it (R103, R104). -/
theorem Touched.stepsLeft_acquireFailed {before after : List Role} {r : Role} (h : Touched p s u)
    (hs : Acquiring s before (r :: after)) (hbusy : (Machine.acquireFailed r u).busy = true) :
    stepsLeft (Machine.acquireFailed r u) < stepsLeft s := by
  obtain ⟨-, -, -, ⟨-, -, hactive, -⟩, -⟩ := h.untouched
  have hunwind : planSteps (unwindSeq u.params u.active r) ≤ 3 * before.length := by
    cases hparam : u.params.unwind with
    | true =>
      rw [unwindSeq_of_roles hparam (by rw [hactive]; exact hs.roles), planSteps_map fun _ => rfl, List.length_reverse]
    | false => simp [unwindSeq, hparam, planSteps]
  have hstage := hs.stage
  have hleft : stepsLeft s = 3 * (after.length + 1) - s.stage + 3 * (before.length + after.length) := by
    rw [stepsLeft, hs.plan, planSteps_map fun _ => rfl, hs.fin, unwindSteps, hs.roles, List.length_append, List.length_cons]
    rfl
  rcases acquireFailed_cases r u with ⟨-, ht⟩ | ⟨x, xs, hseq, ht⟩ <;> rw [ht] at hbusy ⊢
  · cases hbusy
  · rw [hseq] at hunwind
    show planSteps (x :: xs) - 0 + 0 < stepsLeft s
    omega

end

/-- A step of a running command that does not end it leaves fewer steps. -/
theorem InCommand.stepsLeft_primStep {s : State} {p : Prim} {ps : List Prim} {d : Draw} (h : InCommand s)
    (hplan : s.plan = p :: ps) (hbusy : (Machine.primStep p d s).busy = true) :
    stepsLeft (Machine.primStep p d s) < stepsLeft s := by
  have hstage := h.stage_lt hplan
  have hemit := Touched.emit p s
  have hrefl := Touched.refl p s
  cases p with
  | acq r =>
    obtain ⟨before, after, h⟩ : ∃ before after, Acquiring s before (r :: after) := by
      cases h with
      | acquiring before after h =>
        cases after with
        | nil => cases h.plan.symm.trans hplan
        | cons q after =>
          cases h.plan.symm.trans hplan
          exact ⟨before, after, h⟩
      | releasing h =>
        obtain ⟨q, hq, -⟩ := h.plan _ (hplan ▸ List.mem_cons_self)
        cases hq
      | transmitting h => cases h.plan _ (hplan ▸ List.mem_cons_self)
    change (acquireStep r d s).busy = true at hbusy
    show stepsLeft (acquireStep r d s) < stepsLeft s
    rcases acquireStep_cases r d s with
      ⟨-, -, ht⟩ | ⟨-, -, ht⟩ | ⟨-, -, ht⟩ | ⟨-, -, ht⟩ | ⟨-, ht⟩ <;> rw [ht] at hbusy ⊢
    · exact hemit.stepsLeft_nextStage hplan hstage
    · exact hemit.stepsLeft_acquireFailed h hbusy
    · exact hrefl.stepsLeft_nextStage hplan hstage
    · exact (hrefl.setPin r _).stepsLeft_advance hplan hstage hbusy
    · exact hrefl.stepsLeft_acquireFailed h hbusy
  | wr r b =>
    change (writeStep r b d s).busy = true at hbusy
    show stepsLeft (writeStep r b d s) < stepsLeft s
    rcases writeStep_cases r b d s with ⟨-, -, ht⟩ | ⟨-, -, ht⟩ | ⟨-, ht⟩ <;> rw [ht] at hbusy ⊢
    · exact (touched_written r b _ _ d s).stepsLeft_advance hplan hstage hbusy
    · cases hbusy
    · cases hbusy
  | rel r =>
    change (releaseStep r d s).busy = true at hbusy
    show stepsLeft (releaseStep r d s) < stepsLeft s
    rcases releaseStep_cases r d s with ⟨-, -, ht⟩ | ⟨-, -, ht⟩ | ⟨-, ht⟩ | ⟨-, ht⟩ <;> rw [ht] at hbusy ⊢
    · exact (hemit.observe r _ d).stepsLeft_nextStage hplan hstage
    · exact hemit.stepsLeft_advance hplan hstage hbusy
    · exact hrefl.stepsLeft_nextStage hplan hstage
    · exact (hrefl.setPin r _).stepsLeft_advance hplan hstage hbusy
  | dly c => exact (hemit.sleepBound _).stepsLeft_advance hplan hstage hbusy

/-- A running command ends within the steps that are left, whatever the draws, and takes no host move. -/
theorem Invariant.run_ends {s : State} (h : Invariant s) (hbusy : s.busy = true) :
    ∃ n t, 1 ≤ n ∧ n ≤ stepsLeft s ∧ run n s = .next t ∧ t.busy = false ∧ t.host = s.host := by
  induction hleft : stepsLeft s using Nat.strong_induction_on generalizing s with
  | _ left ih =>
    subst hleft
    have hcommand := h.inCommand hbusy
    obtain ⟨p, ps, hplan⟩ := List.exists_cons_of_ne_nil (h.plan_ne_nil hbusy)
    have hstep := (step_eq_exec_prim h.phase hbusy hplan).trans (exec_prim p s)
    have hhost := (hostHasNoMoveWhileBusy s hbusy).1 _ hstep
    cases hnext : (primStep p s.draw s).busy with
    | false => exact ⟨1, _, le_rfl, stepsLeft_pos hplan (hcommand.stage_lt hplan), run_succ hstep 0, hnext, hhost⟩
    | true =>
      have hless : stepsLeft (elapse s.draw (primStep p s.draw s)) < stepsLeft s :=
        hcommand.stepsLeft_primStep hplan hnext
      obtain ⟨n, t, -, hn, hrun, ht, hhost'⟩ := ih _ hless (stepKeepsInvariant _ _ h hstep) hnext rfl
      exact ⟨n + 1, t, by omega, by omega, (run_succ hstep n).trans hrun, ht, hhost'.trans hhost⟩

/-! ### The bounds of R112 -/

theorem one_le_maxSteps (w : Word16) : 1 ≤ maxSteps w := by
  unfold maxSteps
  split <;> decide

theorem EnableChoice.length_le {es : List Role} (h : EnableChoice es) : es.length ≤ 2 := by
  rcases h with rfl | rfl | rfl <;> decide

theorem length_bringupSeq (es : List Role) (v : Byte) : (bringupSeq es v).length = 78 + 12 * es.length := by
  simp only [bringupSeq, List.length_append, length_sendSeq, List.length_singleton]
  omega

/-- The steps of a command's program are within R112's maximum. -/
theorem Accepted.stepsLeft_le {i : Instr} {s : State} {p : Prim} {ps : List Prim} {f : Finish}
    (h : Accepted (encode i) s) (hdecode : decodePort (encode i) = .ok i) (hlegal : legal i s.phase = true)
    (hprogram : programOf i s = some (p :: ps, f)) : stepsLeft (starting (p :: ps) f s) ≤ maxSteps (encode i) := by
  show planSteps (p :: ps) - 0 + unwindSteps s.active f ≤ maxSteps (encode i)
  cases i with
  | bind | start | uacq _ | uwr _ _ | urel _ | udly _ => cases hprogram
  | acqall =>
    obtain ⟨hplan, rfl⟩ := Prod.mk.inj (Option.some.inj hprogram)
    have hroles : (acqOrder.filter s.active.get).length ≤ 8 := List.length_filter_le _ acqOrder
    rw [← hplan, acquireSeq, planSteps_map fun _ => rfl, unwindSteps]
    simp only [maxSteps, hdecode]
    omega
  | bringup =>
    obtain ⟨es, hes, heq⟩ := Option.map_eq_some_iff.1 hprogram
    obtain ⟨hplan, rfl⟩ := Prod.mk.inj heq
    have hphase : s.phase = .pinsAcquired := by simpa [legal] using hlegal
    have hbound : Bound s := h.steady.bound (.inr (by rw [hphase]; rfl))
    have hlength := (enableChoice_of_enables hes).length_le
    rw [← hplan, planSteps_of_transmission (isTransmission_of_mem_bringupSeq hbound (enables_active hbound hes) _),
      length_bringupSeq, unwindSteps]
    simp only [maxSteps, hdecode]
    omega
  | send tgt mode v =>
    obtain ⟨es, hes, heq⟩ := Option.map_eq_some_iff.1 hprogram
    obtain ⟨hplan, rfl⟩ := Prod.mk.inj heq
    have hphase : s.phase = .operational := by simpa [legal] using hlegal
    have hbound : Bound s := h.steady.bound (.inr (by rw [hphase]; rfl))
    have hlength := (enableChoice_of_enables hes).length_le
    rw [← hplan, planSteps_of_transmission (isTransmission_of_mem_sendSeq hbound (enables_active hbound hes) mode v),
      length_sendSeq, unwindSteps]
    simp only [maxSteps, hdecode]
    omega
  | bl b =>
    obtain ⟨hplan, rfl⟩ := Prod.mk.inj (Option.some.inj hprogram)
    rw [← hplan]
    simp only [maxSteps, hdecode]
    split
    · exact le_rfl
    · exact Nat.zero_le 1
  | close =>
    have hphase : s.phase ≠ .released := by
      intro hphase
      rw [programOf, if_pos hphase] at hprogram
      cases hprogram
    rw [programOf, if_neg hphase] at hprogram
    obtain ⟨hplan, rfl⟩ := Prod.mk.inj (Option.some.inj hprogram)
    have hroles : (relOrder.filter s.active.get).length ≤ 8 := List.length_filter_le _ relOrder
    rw [← hplan, releaseSeq, planSteps_map fun _ => rfl, unwindSteps]
    simp only [maxSteps, hdecode]
    omega

/-- Settles O38: a command is over in its acceptance step, or its program ends within the steps that are left at its start. -/
theorem everyCommandEndsInTime : Obligations.EveryCommandEndsInTime := by
  intro s w rest h hidle hhost
  obtain ⟨t, hstep⟩ := invariantStatesNeverStop s h
  have hone (ht : t.busy = false) (hrest : t.host = rest) :
      ∃ n t, 1 ≤ n ∧ n ≤ maxSteps w ∧ run n s = .next t ∧ t.busy = false ∧ t.host = rest :=
    ⟨1, t, le_rfl, one_le_maxSteps w, run_succ hstep 0, ht, hrest⟩
  obtain ⟨-, u, heffect, rfl⟩ := step_effect hstep
  cases heffect with
  | primitive p ps hbusy => cases hidle.symm.trans hbusy
  | idles _ hidles =>
    rcases hidles with hnil | ⟨rest', hcons⟩
    · cases hhost.symm.trans hnil
    · cases hhost.symm.trans hcons
  | rejects w' rest' e _ hhost' hdecode =>
    cases hhost.symm.trans hhost'
    exact hone rfl rfl
  | accepts w' rest' i _ hhost' hdecode hword hdispatched =>
    cases hhost.symm.trans hhost'
    subst hword
    have haccepted := h.accepted hidle (encode i) rest
    cases hdispatched with
    | runs p ps f hlegal hprogram =>
      have hstart := haccepted.starting_invariant hlegal hprogram
      obtain ⟨n, t, hpos, hn, hrun, ht, hrest⟩ := hstart.run_ends rfl
      obtain ⟨k, rfl⟩ := Nat.exists_eq_add_of_le' hpos
      refine ⟨k + 1, t, hpos, hn.trans (haccepted.stepsLeft_le hdecode hlegal hprogram), ?_, ht, hrest⟩
      have hsame : step s = step (starting (p :: ps) f (accepted (encode i) { s with host := rest })) :=
        hstep.trans (step_starting (s := accepted (encode i) { s with host := rest }) hstart.phase rfl).symm
      exact (run_succ_congr hsame k).trans hrun
    | finishes f hlegal hprogram =>
      obtain ⟨-, -, -, -, -, -, -, hkept, -⟩ := finish_frame f (accepted (encode i) { s with host := rest })
      exact hone (finish_ends f _).1 hkept
    | binds _ _ _ => exact hone rfl rfl
    | starts _ _ => exact hone rfl rfl
    | faults c role id _ _ => exact hone rfl rfl

end Sys2Proof.Machine

/-! # ACQALL and CLOSE, role by role

A primitive of ACQALL or CLOSE sets the pin of its role and emits its word; `Handled` says what a sequence of them does, and a
run of the command is the sequence of its roles. -/

namespace Sys2Proof.Machine

/-! ### Roles that are handled -/

theorem Untouched.trans {s t u : State} : Untouched s t → Untouched t u → Untouched s u
  | ⟨hphase, hfault, hhooks, hbinding, hworld⟩, ⟨hphase', hfault', hhooks', hbinding', hworld'⟩ =>
    ⟨hphase'.trans hphase, hfault'.trans hfault, hhooks'.trans hhooks, hbinding.trans hbinding', hworld.trans hworld'⟩

theorem SameLatches.trans {s t u : State} : SameLatches s t → SameLatches t u → SameLatches s u
  | ⟨hlatch1, hlatch2⟩, ⟨hlatch1', hlatch2'⟩ => ⟨hlatch1'.trans hlatch1, hlatch2'.trans hlatch2⟩

/-- The table with one value for each role of a list. -/
def setRoles (roles : List Role) (p : Pin) (m : PerRole Pin) : PerRole Pin := roles.foldl (fun m r => m.set r p) m

theorem setRoles_append (roles roles' : List Role) (p : Pin) (m : PerRole Pin) :
    setRoles (roles ++ roles') p m = setRoles roles' p (setRoles roles p m) := List.foldl_append

theorem get_setRoles (roles : List Role) (p : Pin) (m : PerRole Pin) (q : Role) :
    (setRoles roles p m).get q = if q ∈ roles then p else m.get q := by
  induction roles generalizing m with
  | nil => rfl
  | cons r roles ih =>
    show (setRoles roles p (m.set r p)).get q = _
    rw [ih, PerRole.get_set]
    by_cases hq : q = r <;> simp [hq]

/-- From s to u the roles were handled in order: each pin is set to p, each role's word is in TRACE, and nothing else that
`Untouched` compares was written. -/
structure Handled (p : Pin) (word : Role → Word16) (roles : List Role) (s u : State) : Prop where
  pins      : u.pin = setRoles roles p s.pin
  words     : u.trace.map Prod.fst = s.trace.map Prod.fst ++ roles.map word
  untouched : Untouched s u

section
variable {p : Pin} {word : Role → Word16} {roles roles' : List Role} {s u v : State}

theorem Handled.trans (h : Handled p word roles s u) (h' : Handled p word roles' u v) :
    Handled p word (roles ++ roles') s v where
  pins := by rw [h'.pins, h.pins, setRoles_append]
  words := by rw [h'.words, h.words, List.map_append, List.append_assoc]
  untouched := h.untouched.trans h'.untouched

/-- The position in the command is no part of it. -/
theorem Handled.placed (h : Handled p word roles s u) (plan : List Prim) (n : Nat) :
    Handled p word roles s (placed plan n u) := ⟨h.pins, h.words, h.untouched⟩

/-- The closing action leaves the pins and TRACE. -/
theorem Handled.finish_frame (h : Handled p word roles s u) (f : Finish) :
    (finish f u).pin = setRoles roles p s.pin ∧
      (finish f u).trace.map Prod.fst = s.trace.map Prod.fst ++ roles.map word ∧ SameWorld s (finish f u) := by
  obtain ⟨hpin, htrace, -⟩ := Machine.finish_frame f u
  obtain ⟨-, -, -, -, hworld⟩ := h.untouched
  exact ⟨hpin.trans h.pins, by rw [htrace, h.words], hworld.trans (finish_sameWorld f u)⟩

end

/-- The next primitive stands at its first request. -/
theorem RunsPlan.placed {plan : List Prim} {stage : Nat} {s : State} (h : RunsPlan plan stage s) (plan' : List Prim) (n : Nat) :
    RunsPlan plan' 0 (placed plan' n s) := by
  obtain ⟨hphase, hbusy, -, -⟩ := h
  exact ⟨hphase, hbusy, rfl, rfl⟩

/-- A run of at least one step has a first one. -/
theorem exists_first_of_run {n : Nat} {s t : State} (h : run (n + 1) s = .next t) :
    ∃ t₁, step s = .next t₁ ∧ run n t₁ = .next t := by
  rw [run] at h
  split at h
  · next u hu => exact ⟨u, hu, h⟩
  · cases h
  · cases h

/-- The run of an accepted program is the run from where it starts. -/
theorem exec_of_run {i : Instr} {s t : State} {p : Prim} {ps : List Prim} {f : Finish} {n : Nat} (hphase : s.phase ≠ .reserved)
    (hidle : s.busy = false) (hlegal : legal i s.phase = true) (hprogram : programOf i s = some (p :: ps, f))
    (hrun : run (n + 1) (starting (p :: ps) f (accepted (encode i) s)) = .next t) :
    ∃ t₁, exec i s = .next t₁ ∧ run n t₁ = .next t := by
  rw [exec_program hphase hidle hlegal hprogram]
  exact exists_first_of_run hrun

/-! ### Acquiring every role (R81, R103) -/

/-- Between commands no pin is acquired in PinsBound (R40). -/
theorem Invariant.pins_of_pinsBound {s : State} (h : Invariant s) (hidle : s.busy = false) (hphase : s.phase = .pinsBound) :
    s.pin = every Pin.idle := by
  obtain ⟨-, -, -, -, hfin⟩ := h.idle hidle
  exact h.free hphase (by rw [hfin]; nofun) (by rw [hfin]; nofun)

/-- The word of a role's Acquire. -/
def acqWord (r : Role) : Word16 := encode (.uacq r)

/-- The three requests of an Acquire that succeeds (R81). -/
theorem run_acquire {r : Role} {rest : List Prim} {s : State} (h : RunsPlan (.acq r :: rest) 0 s) (hok : RequestsSucceed 3 s) :
    ∃ u, run 3 s = .next (advance u) ∧ RunsPlan (.acq r :: rest) 2 u ∧ u.fin = s.fin ∧
      Handled Pin.acquired acqWord [r] s u ∧ SameLatches s u := by
  obtain ⟨-, hexport, -⟩ := hok 0 (by decide)
  obtain ⟨-, -, hdir, -⟩ := hok 1 (by decide)
  obtain ⟨-, -, -, hopen, -⟩ := hok 2 (by decide)
  have ⟨_, _, hplan, hstage⟩ := h
  obtain ⟨hfirst, -⟩ := uacqAcquiresInThreeSteps r s rest hplan
  obtain ⟨s1, hexec1, htrace1, hpin1, hon1, hlatches1, huntouched1, -⟩ := hfirst hstage hexport
  have h1 := h.wentOn hon1 huntouched1
  rw [hplan] at h1
  have hstep1 := h.step_eq.trans hexec1
  have ⟨_, _, hplan1, hstage1⟩ := h1
  have hdir1 : s1.draw.dirOk = true := by rw [State.draw, step_drawAt hstep1, hdir]
  obtain ⟨-, hsecond, -⟩ := uacqAcquiresInThreeSteps r s1 rest hplan1
  obtain ⟨s2, hexec2, htrace2, hpin2, hon2, hlatches2, huntouched2, -⟩ := hsecond hstage1 hdir1
  have h2 := h1.wentOn hon2 huntouched2
  rw [hplan1] at h2
  have hstep2 := h1.step_eq.trans hexec2
  have ⟨_, _, hplan2, hstage2⟩ := h2
  have hopen2 : s2.draw.openOk = true := by rw [State.draw, step_drawAt hstep2, step_drawAt hstep1, hopen]
  have hstep3 : step s2 = .next (elapse s2.draw (advance (setPin r Pin.acquired s2))) :=
    h2.step_eq.trans (exec_uacq (by simp [acquireStep, hstage2, hopen2])).1
  obtain ⟨-, -, -, -, -, -, hfin1⟩ := hon1
  obtain ⟨-, -, -, -, -, -, hfin2⟩ := hon2
  refine ⟨elapse s2.draw (setPin r Pin.acquired s2), ?_, h2, hfin2.trans hfin1, ⟨?_, ?_, huntouched1.trans huntouched2⟩,
    hlatches1.trans hlatches2⟩
  · rw [run_succ hstep1, run_succ hstep2, run_succ hstep3, ← elapse_advance]
    rfl
  · show s2.pin.set r Pin.acquired = _
    rw [hpin2, hpin1]
    rfl
  · show s2.trace.map Prod.fst = _
    rw [htrace2, htrace1, List.map_append]
    rfl

/-- ACQALL's roles, one after the other (R103). -/
theorem run_acquires {roles : List Role} {s : State} (h : RunsPlan (roles.map .acq) 0 s) (hne : roles ≠ [])
    (hok : RequestsSucceed (3 * roles.length) s) :
    ∃ u, run (3 * roles.length) s = .next (finish s.fin u) ∧ Handled Pin.acquired acqWord roles s u ∧ SameLatches s u := by
  induction roles generalizing s with
  | nil => exact absurd rfl hne
  | cons r roles ih =>
    have hlength : 3 * (r :: roles).length = 3 + 3 * roles.length := by simp [Nat.mul_add, Nat.add_comm]
    rw [hlength] at hok ⊢
    obtain ⟨u, hrun, hplace, hfin, hu, hlatches⟩ := run_acquire h (hok.mono (Nat.le_add_right 3 _))
    have ⟨_, _, hplan, _⟩ := hplace
    cases roles with
    | nil =>
      rw [advance_last hplan, hfin] at hrun
      exact ⟨u, hrun, hu, hlatches⟩
    | cons q roles =>
      rw [advance_more hplan] at hrun
      obtain ⟨v, hrun', hv, hlatches'⟩ := ih (hplace.placed _ (u.upc + 1)) nofun (hok.after hrun le_rfl)
      refine ⟨v, ?_, (hu.placed _ _).trans hv, hlatches.trans hlatches'⟩
      rw [run_add hrun, ← hfin]
      exact hrun'

/-- The roles of an ACQALL whose requests all succeed, from its acceptance to its end. -/
theorem exec_acqall_run {s : State} (h : Invariant s) (hidle : s.busy = false) (hphase : s.phase = .pinsBound)
    (hok : RequestsSucceed (3 * (acqOrder.filter s.active.get).length) s) :
    ∃ t₁ u, exec .acqall s = .next t₁ ∧
      run (3 * (acqOrder.filter s.active.get).length - 1) t₁ = .next (finish .acquired u) ∧
      Handled Pin.acquired acqWord (acqOrder.filter s.active.get) s u ∧ SameLatches s u := by
  have hbound : Bound s := h.steady.bound (.inl hphase)
  obtain ⟨r, roles, hroles⟩ : ∃ r roles, acqOrder.filter s.active.get = r :: roles :=
    ⟨.en, _, List.filter_cons_of_pos hbound.required.1⟩
  have hprogram : programOf .acqall s = some (.acq r :: roles.map .acq, .acquired) := by
    rw [programOf, acquireSeq, hroles, List.map_cons]
  rw [hroles] at hok ⊢
  have hstart : RunsPlan ((r :: roles).map .acq) 0
      (starting (.acq r :: roles.map .acq) .acquired (accepted (encode .acqall) s)) := ⟨h.phase, rfl, rfl, rfl⟩
  obtain ⟨u, hrun, hu, hlatches⟩ := run_acquires hstart nofun hok
  obtain ⟨t₁, hexec, hrun'⟩ := exec_of_run (n := 3 * (r :: roles).length - 1) h.phase hidle (by simp [legal, hphase])
    hprogram hrun
  exact ⟨t₁, u, hexec, hrun', ⟨hu.pins, hu.words, hu.untouched⟩, hlatches⟩

/-- The roles of R111's table are the active ones in ACQ_ORDER (R103, R111). -/
theorem Bound.acquired_roles {s : State} (h : Bound s) :
    (match decide (s.cfgNc = some .two), s.active.bl with
      | false, false => [.en, .rs, .d7, .d6, .d5, .d4]
      | false, true => [.en, .rs, .d7, .d6, .d5, .d4, .bl]
      | true, false => [.en, .rs, .d7, .d6, .d5, .d4, .en2]
      | true, true => [.en, .rs, .d7, .d6, .d5, .d4, .bl, .en2]) = acqOrder.filter s.active.get := by
  obtain ⟨hen, hrs, hd4, hd5, hd6, hd7⟩ := h.required
  rw [← h.second]
  simp only [acqOrder, List.filter, PerRole.get, hen, hrs, hd4, hd5, hd6, hd7]
  cases s.active.en2 <;> cases s.active.bl <;> rfl

/-- Settles O33: from PinsBound, where no pin is acquired, the active roles in ACQ_ORDER are set. -/
theorem acqallAcquiresConfiguredSet : Obligations.AcqallAcquiresConfiguredSet := by
  intro s h hidle hphase roles hok
  have hroles : roles = acqOrder.filter s.active.get := (h.steady.bound (.inl hphase)).acquired_roles
  clear_value roles
  subst hroles
  obtain ⟨t₁, u, hexec, hrun, hu, hlatches⟩ := exec_acqall_run h hidle hphase hok
  obtain ⟨hpin, hwords, hworld⟩ := hu.finish_frame .acquired
  obtain ⟨-, hfault, hhooks, hbinding, -⟩ := hu.untouched
  refine ⟨t₁, _, hexec, hrun, endCommand_idle _ _, rfl, hwords, fun r => ?_, hfault, hhooks, hbinding, hlatches, hworld⟩
  rw [hpin, get_setRoles, h.pins_of_pinsBound hidle hphase, every_get]
  rfl

/-! ### Releasing every role (R83, R110) -/

/-- The word of a role's Release. -/
def relWord (r : Role) : Word16 := encode (.urel r)

/-- A pin that is not acquired has its reset value (R25). -/
def UnheldIdle (m : PerRole Pin) : Prop := ∀ r, (m.get r).acq = false → m.get r = Pin.idle

theorem PinsOk.unheldIdle {s : State} (h : PinsOk s) : UnheldIdle s.pin := by
  intro r hacq
  obtain ⟨hdir, hhnd, hlvl⟩ := (h r).2 hacq
  exact eq_idle hacq hdir hhnd hlvl

theorem UnheldIdle.setRoles {m : PerRole Pin} (h : UnheldIdle m) (roles : List Role) :
    UnheldIdle (setRoles roles Pin.idle m) := by
  intro r
  rw [get_setRoles]
  split
  · exact fun _ => rfl
  · exact h r

/-- A Release, whatever the draws: one step on a pin that is not acquired, three on another (R83). -/
theorem run_release {r : Role} {rest : List Prim} {s : State} (h : RunsPlan (.rel r :: rest) 0 s) (hpins : UnheldIdle s.pin) :
    ∃ n stage u, n + 1 ≤ 3 ∧ run (n + 1) s = .next (advance u) ∧ RunsPlan (.rel r :: rest) stage u ∧ u.fin = s.fin ∧
      Handled Pin.idle relWord [r] s u := by
  have ⟨_, _, hplan, hstage⟩ := h
  cases hacq : (s.pin.get r).acq with
  | false =>
    have hstep := h.step_eq.trans (exec_urel (releaseStep_unacquired s.draw hacq hstage)).1
    refine ⟨0, 0, elapse s.draw (emit (encode (.urel r)) s), by decide, ?_, h, rfl, ?_, by simp [relWord], .refl s⟩
    · rw [run_succ hstep, elapse_advance]
      rfl
    · show s.pin = s.pin.set r Pin.idle
      rw [← hpins r hacq, PerRole.set_get]
  | true =>
    obtain ⟨hfirst, -⟩ := urelReleasesThePin r s rest hplan
    obtain ⟨s1, hexec1, htrace1, hpin1, hon1, -, -, huntouched1, -⟩ := hfirst hacq hstage
    have h1 := h.wentOn hon1 huntouched1
    rw [hplan] at h1
    have ⟨_, _, hplan1, hstage1⟩ := h1
    obtain ⟨-, -, -, hsecond, -⟩ := urelReleasesThePin r s1 rest hplan1
    obtain ⟨s2, hexec2, htrace2, hpin2, hon2, -, huntouched2, -⟩ := hsecond hstage1
    have h2 := h1.wentOn hon2 huntouched2
    rw [hplan1] at h2
    have ⟨_, _, hplan2, hstage2⟩ := h2
    have hstep3 : step s2 = .next (elapse s2.draw (advance (setPin r Pin.idle s2))) :=
      h2.step_eq.trans (exec_urel (by simp [releaseStep, hstage2])).1
    obtain ⟨-, -, -, -, -, -, hfin1⟩ := hon1
    obtain ⟨-, -, -, -, -, -, hfin2⟩ := hon2
    refine ⟨2, 2, elapse s2.draw (setPin r Pin.idle s2), le_rfl, ?_, h2, hfin2.trans hfin1, ?_, ?_,
      huntouched1.trans huntouched2⟩
    · rw [run_succ (h.step_eq.trans hexec1), run_succ (h1.step_eq.trans hexec2), run_succ hstep3, ← elapse_advance]
      rfl
    · show s2.pin.set r Pin.idle = _
      rw [hpin2, hpin1]
      rfl
    · show s2.trace.map Prod.fst = _
      rw [htrace2, htrace1, List.map_append]
      rfl

/-- The roles of CLOSE, one after the other, whatever the draws (R110). -/
theorem run_releases {roles : List Role} {s : State} (h : RunsPlan (roles.map .rel) 0 s) (hne : roles ≠ [])
    (hpins : UnheldIdle s.pin) :
    ∃ n u, n + 1 ≤ 3 * roles.length ∧ run (n + 1) s = .next (finish s.fin u) ∧ Handled Pin.idle relWord roles s u := by
  induction roles generalizing s with
  | nil => exact absurd rfl hne
  | cons r roles ih =>
    obtain ⟨n, stage, u, hn, hrun, hplace, hfin, hu⟩ := run_release h hpins
    have ⟨_, _, hplan, _⟩ := hplace
    rw [List.length_cons]
    cases roles with
    | nil =>
      rw [advance_last hplan, hfin] at hrun
      exact ⟨n, u, hn, hrun, hu⟩
    | cons q roles =>
      have hpins' : UnheldIdle u.pin := by
        rw [hu.pins]
        exact hpins.setRoles [r]
      rw [advance_more hplan] at hrun
      obtain ⟨m, v, hm, hrun', hv⟩ := ih (hplace.placed _ (u.upc + 1)) nofun hpins'
      refine ⟨n + 1 + m, v, by omega, ?_, (hu.placed _ _).trans hv⟩
      rw [Nat.add_assoc (n + 1), run_add hrun, ← hfin]
      exact hrun'

/-- The roles of a CLOSE, from its acceptance to its end (R110, R112). -/
theorem exec_close_run {s : State} (hinv : Invariant s) (hidle : s.busy = false) (hphase : s.phase ≠ .released) :
    ∃ n t₁ u, n ≤ 23 ∧ exec .close s = .next t₁ ∧ run n t₁ = .next (finish .closed u) ∧
      Handled Pin.idle relWord (relOrder.filter s.active.get) s u := by
  have hroles : (relOrder.filter s.active.get).length ≤ 8 := List.length_filter_le _ relOrder
  have hprogram : programOf .close s = some (releaseSeq s.active, .closed) := by rw [programOf, if_neg hphase]
  rw [releaseSeq] at hprogram
  generalize relOrder.filter s.active.get = roles at hroles hprogram ⊢
  cases roles with
  | nil =>
    have hexec := exec_legal (i := .close) rfl hidle rfl
    rw [ruleOf_of_program _ ((programOf_accepted _ _ s).trans hprogram)] at hexec
    refine ⟨0, _, elapse s.draw (accepted (encode .close) s), by decide, hexec, ?_, rfl, by simp, .refl s⟩
    rw [← elapse_finish]
    rfl
  | cons r roles =>
    have hstart : RunsPlan ((r :: roles).map .rel) 0
        (starting (.rel r :: roles.map .rel) .closed (accepted (encode .close) s)) := ⟨hinv.phase, rfl, rfl, rfl⟩
    obtain ⟨n, u, hn, hrun, hu⟩ := run_releases hstart nofun hinv.pins.unheldIdle
    obtain ⟨t₁, hexec, hrun'⟩ := exec_of_run hinv.phase hidle rfl hprogram hrun
    exact ⟨n, t₁, u, by omega, hexec, hrun', ⟨hu.pins, hu.words, hu.untouched⟩⟩

/-- With every active role released all pins have their reset value (R25). -/
theorem PinsOk.setRoles_active {s : State} (h : PinsOk s) :
    setRoles (relOrder.filter s.active.get) Pin.idle s.pin = every Pin.idle := by
  refine PerRole.ext_get fun r => ?_
  rw [get_setRoles, every_get]
  split
  · rfl
  · next hr =>
    refine h.unheldIdle r (Bool.eq_false_iff.2 fun hacq => hr ?_)
    exact List.mem_filter.2 ⟨mem_relOrder r, h.active_of_acq hacq⟩

/-- Settles O37: CLOSE releases the active roles, which are all that can be acquired, and frees the binding; in Released it
ends at once. -/
theorem closeReleasesEverything : Obligations.CloseReleasesEverything := by
  refine ⟨fun s h hidle hphase => ?_, fun s hidle hphase => ?_⟩
  · obtain ⟨n, t₁, u, hn, hexec, hrun, hu⟩ := exec_close_run h hidle hphase
    obtain ⟨hpin, hwords, hworld⟩ := hu.finish_frame .closed
    obtain ⟨-, hfault, -⟩ := hu.untouched
    exact ⟨n, t₁, _, hn, hexec, hrun, endCommand_idle _ _, rfl, hpin.trans h.pins.setRoles_active, ⟨rfl, rfl, rfl, rfl⟩, rfl,
      hfault, hworld, hwords⟩
  · have hprogram : programOf .close s = some ([], .done) := by rw [programOf, if_pos hphase]
    have hexec := exec_legal (i := .close) rfl hidle rfl
    rw [ruleOf_of_program _ ((programOf_accepted _ _ s).trans hprogram)] at hexec
    exact ⟨_, hexec, endCommand_ended _ _ _, rfl, rfl, ⟨rfl, rfl⟩, .refl s, rfl, rfl, rfl⟩

end Sys2Proof.Machine

/-! # BRINGUP (R105, R106, R108)

A BRINGUP whose writes succeed is one transmission: three SendSeqs over the selected enables, each with its pause. -/

namespace Sys2Proof.Machine

/-! ### The run of a BRINGUP -/

/-- A program of a ready phase can be transmitted: its roles are acquired. -/
theorem Invariant.canTransmit {s : State} {ps : List Prim} {f : Finish} (h : Invariant s) (hidle : s.busy = false)
    (hready : s.phase.ready = true) (hps : ∀ p ∈ ps, isTransmission s.active p = true) (hok : WritesSucceed ps.length s)
    (w : Word16) : CanTransmit ps (starting ps f (Machine.accepted w s)) where
  phase := h.phase
  busy := rfl
  writable := by
    obtain ⟨-, -, -, -, hfin⟩ := h.idle hidle
    intro p hp
    have htransmission := hps p hp
    cases p with
    | wr r b => exact (h.ready hready (by rw [hfin]; nofun) r htransmission).1
    | dly c => trivial
    | acq _ | rel _ => cases htransmission
  succeed := hok

/-- The enables are low between commands of a ready phase (R37, R92). -/
theorem Invariant.enable_low {s : State} (h : Invariant s) (hidle : s.busy = false) (hready : s.phase.ready = true) {e : Role}
    (he : IsEnable e) (hactive : s.active.get e = true) : (s.pin.get e).lvl = some false := by
  obtain ⟨-, -, hplan, -, hfin⟩ := h.idle hidle
  have hopen : s.fin ≠ .closed := by rw [hfin]; nofun
  have hlow := h.enables hready hopen
  rw [hplan, enablesSafe, Bool.and_eq_true, Bool.not_eq_true', Bool.not_eq_true'] at hlow
  refine eq_low_of_not_high (h.ready hready hopen e hactive).2 ?_
  rcases he with rfl | rfl
  · exact hlow.1
  · exact hlow.2

/-- The steps of a BRINGUP whose writes succeed, from its acceptance to its end (R105). -/
theorem exec_bringup_run {s : State} {es : List Role} (h : Invariant s) (hidle : s.busy = false)
    (hphase : s.phase = .pinsAcquired) (henables : enables s.params.bringupTarget.target s.cfgNc = some es)
    (hok : WritesSucceed (78 + 12 * es.length) s) :
    ∃ ps w t₁, ps = bringupSeq es s.params.funcset4 ∧ CanTransmit ps (starting ps .broughtUp (accepted w s)) ∧
      exec .bringup s = .next t₁ ∧
      run (77 + 12 * es.length) t₁ = .next (finish .broughtUp (transmit ps (starting ps .broughtUp (accepted w s)))) := by
  have hready : s.phase.ready = true := by rw [hphase]; rfl
  have hbound : Bound s := h.steady.bound (.inr hready)
  have hlength := length_bringupSeq es s.params.funcset4
  have hcan := h.canTransmit (f := .broughtUp) hidle hready
    (isTransmission_of_mem_bringupSeq hbound (enables_active hbound henables) s.params.funcset4)
    (by rw [hlength]; exact hok) (encode .bringup)
  have hprogram : programOf .bringup s = some (bringupSeq es s.params.funcset4, .broughtUp) := by
    rw [programOf, henables]
    rfl
  obtain ⟨-, hends⟩ := run_transmit hcan (List.cons_ne_nil _ _) 0
  rw [hlength, show 78 + 12 * es.length = 77 + 12 * es.length + 1 by omega] at hends
  obtain ⟨t₁, hexec, hrun⟩ := exec_of_run h.phase hidle (by simp [legal, hphase]) hprogram hends
  exact ⟨_, _, t₁, rfl, hcan, hexec, hrun⟩

/-! ### Its lines, words and records -/

/-- The last SendSeq says what the lines are after BRINGUP's sequence. -/
theorem levelAfter_bringupSeq (r : Role) (l : Option Bool) (es : List Role) (v : Byte) :
    ∃ l', levelAfter r l (bringupSeq es v) = levelAfter r l' (sendSeq es .instruction v) := by
  refine ⟨levelAfter r l (sendSeq es .instruction 0x33 ++ [.dly .pb1] ++ sendSeq es .instruction 0x32 ++ [.dly .pb2]), ?_⟩
  rw [bringupSeq, levelAfter_append, levelAfter_append]
  rfl

theorem bringupSeq_leavesNibble {es : List Role} (h : EnableChoice es) (v : Byte) :
    LeavesNibble (bringupSeq es v) (lowNibble v) := by
  obtain ⟨-, -, -, -, hdata⟩ := sendSeq_leavesNibble h .instruction v
  have hlast {r : Role} {b : Bool} (hr : ∀ l, levelAfter r l (sendSeq es .instruction v) = some b) (l : Option Bool) :
      levelAfter r l (bringupSeq es v) = some b := by
    obtain ⟨l', hl'⟩ := levelAfter_bringupSeq r l es v
    exact hl'.trans (hr l')
  exact ⟨hlast hdata.d7, hlast hdata.d6, hlast hdata.d5, hlast hdata.d4⟩

theorem bringupSeq_rs {es : List Role} (h : EnableChoice es) (v : Byte) (l : Option Bool) :
    levelAfter .rs l (bringupSeq es v) = some false := by
  obtain ⟨l', hl'⟩ := levelAfter_bringupSeq .rs l es v
  exact hl'.trans (sendSeq_rs h .instruction v l')

theorem bringupSeq_enable {es : List Role} (h : EnableChoice es) (v : Byte) {e : Role} (he : e ∈ es) (l : Option Bool) :
    levelAfter e l (bringupSeq es v) = some false := by
  obtain ⟨l', hl'⟩ := levelAfter_bringupSeq e l es v
  exact hl'.trans (sendSeq_enable h .instruction v he l')

theorem not_written_bringupSeq {es : List Role} {r : Role} (hes : r ∉ es) (hr : isDataOrRs r = false) (v : Byte) (b : Bool) :
    .wr r b ∉ bringupSeq es v := by
  simp [bringupSeq, not_written_sendSeq hes hr]

/-- The six nibbles of R106. -/
def bringupNibbles (v : Byte) : List (Bool × Nibble) :=
  [(false, 0x3), (false, 0x3), (false, 0x3), (false, 0x2), (false, highNibble v), (false, lowNibble v)]

/-- What BRINGUP's sequence adds to a controller's records: the six nibbles when its enable is selected (R106). -/
theorem contents_bringupSeq {es : List Role} (h : EnableChoice es) {e : Role} (he : IsEnable e) (v : Byte) (s : State) :
    contents (latchOf e (transmit (bringupSeq es v) s)) =
      contents (latchOf e s) ++ (if e ∈ es then bringupNibbles v else []) := by
  have hdelay (c : DelayClass) (u : State) : latchOf e (transmit [.dly c] u) = latchOf e u :=
    latchOf_transmit he (by simp) u
  simp only [bringupSeq, transmit_append, hdelay, contents_sendSeq h he, List.append_assoc]
  split <;> rfl

/-- The delays of BRINGUP's sequence (R106). -/
theorem bringupSeq_bounds {es : List Role} (h : EnableChoice es) (v : Byte) (params : Params) :
    ((bringupSeq es v).map (primBound params)).sum = 24 * params.tHold + params.pb1 + params.pb2 + params.pb3 := by
  have hsend (w : Byte) : ((sendSeq es .instruction w).map (primBound params)).sum = 8 * params.tHold :=
    (sendSeq_counts h .instruction w params).2.2
  simp only [bringupSeq, List.map_append, List.sum_append, hsend, List.map_singleton, List.sum_singleton, primBound, delayBound]
  omega

theorem stamped_length (ps : List Prim) (s : State) : (stamped ps s).length = ps.length := by
  rw [← List.length_map (f := Prod.fst), stamped_words, wordsOf, List.length_map]

/-! ### Its latches are well-timed (R93) -/

/-- An enable that is low starts on a course of its own, which counts from here on. -/
theorem tracks_low (T : Nat) {e : Role} {s : State} (hlow : (s.pin.get e).lvl = some false) :
    Tracks T s.trace.length ((latchOf e s).map (·.t)) e .low s where
  course := {
    start := le_rfl
    held := by
      intro i hi hword
      rw [List.getElem?_eq_none hi] at hword
      cases hword
    shown := trivial
    latches := by simp [fallStamps] }
  level := fun _ => hlow

/-- A transmission of a program that leaves a low enable settled keeps R59's bounds, with a record at each fall. -/
theorem transmit_wellTimed {e : Role} {ps : List Prim} {s : State} (he : IsEnable e) (hlow : (s.pin.get e).lvl = some false)
    (hcan : CanTransmit ps s) (hps : Settles e ps) :
    FallsWellTimed s.params.tHold e s.trace.length (transmit ps s).now (transmit ps s).trace ∧
      (latchOf e (transmit ps s)).map (·.t) =
        (latchOf e s).map (·.t) ++ fallStamps e s.trace.length (transmit ps s).trace := by
  obtain ⟨st, hafter, hsettled⟩ := hps .low rfl
  obtain ⟨⟨-, hheld, -, hlatches⟩, -⟩ := (tracks_low s.params.tHold hlow).transmit he rfl hcan hafter
  rw [Pulse.due_of_settled hsettled] at hheld
  exact ⟨hheld.fallsWellTimed, hlatches⟩

/-! ### The statement -/

/-- BRINGUP selects the first enable always, and the second when its target is All and there are two controllers (R90, R105). -/
theorem mem_bringup_enables {t : BringupTarget} {nc : Option Controllers} {es : List Role}
    (h : enables t.target nc = some es) : .en ∈ es ∧ (.en2 ∈ es ↔ t = .all ∧ nc = some .two) := by
  obtain ⟨hen, hen2⟩ := mem_enables_iff h
  cases t <;> simp [hen, hen2, BringupTarget.target]

/-- Settles O34: the levels, words, records and delays are those of BRINGUP's sequence. -/
theorem bringupSendsResetSequence : Obligations.BringupSendsResetSequence := by
  intro s es h hidle hphase henables hok
  have hready : s.phase.ready = true := by rw [hphase]; rfl
  have hbound : Bound s := h.steady.bound (.inr hready)
  have hchoice := enableChoice_of_enables henables
  have hpositive := hchoice.length_pos
  obtain ⟨hen, hen2⟩ := mem_bringup_enables henables
  obtain ⟨ps, w, t₁, hps, hcan, hexec, hrun⟩ := exec_bringup_run h hidle hphase henables hok
  have hlength := length_bringupSeq es s.params.funcset4
  have hcontents (e : Role) (he : IsEnable e) :=
    contents_bringupSeq hchoice he s.params.funcset4 (starting ps .broughtUp (accepted w s))
  have hsettles (e : Role) (he : IsEnable e) : Settles e (bringupSeq es s.params.funcset4) :=
    settles_programOf (i := .bringup) (s := s) (f := .broughtUp) he (by rw [programOf, henables]; rfl)
  have hbounds := bringupSeq_bounds hchoice s.params.funcset4 s.params
  have hrs := bringupSeq_rs hchoice s.params.funcset4 s.pin.rs.lvl
  have hdata := bringupSeq_leavesNibble hchoice s.params.funcset4
  have hlow (e : Role) (he : e ∈ es) := bringupSeq_enable hchoice s.params.funcset4 he (s.pin.get e).lvl
  have hother (r : Role) (hes : r ∉ es) (hr : isDataOrRs r = false) := not_written_bringupSeq hes hr s.params.funcset4
  rw [← hps] at hlength hcontents hsettles hbounds hrs hdata hlow hother
  have hpin (r : Role) := transmit_pin ps (starting ps .broughtUp (accepted w s)) r
  obtain ⟨-, hfault, hhooks, hbinding, hworld⟩ := transmit_untouched ps (starting ps .broughtUp (accepted w s))
  refine ⟨t₁, _, hexec, hrun, endCommand_idle _ _, rfl, ?_, fun e he => ?_, ⟨stamped ps _, transmit_trace hcan, ?_⟩, ?_,
    (congrArg Pin.lvl (hpin .rs)).trans hrs, ?_, fun e he => (congrArg Pin.lvl (hpin e)).trans (hlow e he),
    fun r hr hes => ?_, fun r => ?_, hfault, hhooks, hbinding, hworld⟩
  · rintro nibbles rfl
    rw [← toNat_highNibble, ← toNat_lowNibble, BitVec.ofNat_toNat, BitVec.ofNat_toNat, BitVec.setWidth_eq, BitVec.setWidth_eq]
    have hfirst := hcontents .en (.inl rfl)
    have hsecond := hcontents .en2 (.inr rfl)
    rw [if_pos hen] at hfirst
    simp only [hen2] at hsecond
    exact ⟨hfirst, hsecond⟩
  · have henable := hchoice.isEnable he
    have hstart := h.enable_low hidle hready henable (enables_active hbound henables e he)
    exact transmit_wellTimed (s := starting ps .broughtUp (accepted w s)) henable hstart hcan (hsettles e henable)
  · rw [stamped_length]
    omega
  · have hnow : s.now + (ps.map (primBound s.params)).sum ≤ _ := le_transmit_now ps (starting ps .broughtUp (accepted w s))
    rw [hbounds, ← Nat.add_assoc, ← Nat.add_assoc, ← Nat.add_assoc] at hnow
    exact hnow
  · rw [← toNat_lowNibble]
    exact hdata.dataLines (endCommand_pin _ _)
  · refine (hpin r).trans ?_
    rw [levelAfter_of_not_written (hother r hes hr)]
    rfl
  · show SameHold (s.pin.get r) ((transmit ps (starting ps .broughtUp (accepted w s))).pin.get r)
    rw [hpin r]
    exact ⟨rfl, rfl, rfl⟩

end Sys2Proof.Machine

/-! # From reset to Operational (R74, R109)

The host's four commands, one after the other: each leads from a state between commands without a fault to the next one. -/

namespace Sys2Proof.Machine

/-! ### States between the commands -/

theorem Invariant.of_run {n : Nat} {s t : State} (h : Invariant s) (hrun : run n s = .next t) : Invariant t := by
  induction n generalizing s with
  | zero =>
    cases hrun
    exact h
  | succ n ih =>
    obtain ⟨u, hstep, hrest⟩ := exists_first_of_run hrun
    exact ih (stepKeepsInvariant s u h hstep) hrest

/-- The invariant does not look at the host's moves. -/
theorem Invariant.withHost {s : State} (h : Invariant s) (moves : List HostMove) : Invariant { s with host := moves } :=
  ⟨h.phase, h.binding, h.pins, h.free, h.low, h.ready, h.enables, h.idle, h.running, h.fault, h.resp, h.words, h.stamps⟩

/-- Between two commands, in phase p and without a fault, with the host's moves to come. -/
structure Between (params : Params) (p : Phase) (moves : List HostMove) (s : State) : Prop where
  inv    : Invariant s
  idle   : s.busy = false
  phase  : s.phase = p
  host   : s.host = moves
  params : s.params = params
  clean  : s.fault.valid = false
  resp   : s.resp = 0x00

section
variable {params : Params} {p q : Phase} {i : Instr} {rest : List HostMove} {s t₁ t : State} {n : Nat}

/-- The next command, which the host issues, runs and leaves the block between commands again. -/
theorem Between.command (h : Between params p (.issue (encode i) :: rest) s) (hcommand : isCommand i = true)
    (hexec : exec i { s with host := rest } = .next t₁) (hrun : run n t₁ = .next t) (hended : Ended 0x00 t)
    (hphase : t.phase = q) (hfault : t.fault = s.fault) (hworld : SameWorld { s with host := rest } t) :
    run (n + 1) s = .next t ∧ Between params q rest t := by
  have hstep := (step_eq_exec_command h.inv.phase h.idle h.host (decodePort_encode hcommand)).trans hexec
  have hrun' : run (n + 1) s = .next t := (run_succ hstep n).trans hrun
  obtain ⟨hparams, -, hhost⟩ := hworld
  obtain ⟨hidle, -, -, hresp, -⟩ := hended
  exact ⟨hrun', h.inv.of_run hrun', hidle, hphase, hhost, hparams.trans h.params, hfault ▸ h.clean, hresp⟩

/-- BIND of distinct ids (R101). -/
theorem Between.bind (h : Between params .unconfigured (.issue 0x1000 :: rest) s) (hok : s.draw.allocOk = true)
    (hids : aliasCheck (resolveActive s.inputs s.params) (resolve s.inputs s.params) = none) :
    ∃ t, run 1 s = .next t ∧ Between params .pinsBound rest t := by
  have hexec := exec_bind_binds (s := { s with host := rest }) h.idle h.phase hok hids
  exact ⟨_, Between.command (i := .bind) (n := 0) h rfl hexec rfl (endCommand_ended _ _ _) rfl rfl ⟨rfl, rfl, rfl⟩⟩

/-- ACQALL acquires the active pins (R103). -/
theorem Between.acqall (h : Between params .pinsBound (.issue 0x2000 :: rest) s) (hok : RequestsSucceed 24 s) :
    ∃ n t, n ≤ 24 ∧ run n s = .next t ∧ Between params .pinsAcquired rest t ∧
      ∀ r, t.active.get r = true → t.pin.get r = Pin.acquired := by
  have hroles : (acqOrder.filter s.active.get).length ≤ 8 := List.length_filter_le _ acqOrder
  have hok' : RequestsSucceed (3 * (acqOrder.filter s.active.get).length) s := hok.mono (by omega)
  obtain ⟨t₁, u, hexec, hrun, hu, -⟩ :=
    exec_acqall_run (s := { s with host := rest }) (h.inv.withHost rest) h.idle h.phase hok'
  obtain ⟨hpin, -, hworld⟩ := hu.finish_frame .acquired
  obtain ⟨-, hfault, -, ⟨-, -, hactive, -⟩, -⟩ := hu.untouched
  obtain ⟨hrun', hbetween⟩ := Between.command (i := .acqall) (q := .pinsAcquired) h rfl hexec hrun (endCommand_idle _ _) rfl
    hfault hworld
  refine ⟨_, _, ?_, hrun', hbetween, fun r hr => ?_⟩
  · show 3 * (acqOrder.filter s.active.get).length - 1 + 1 ≤ 24
    omega
  · rw [hpin, get_setRoles, if_pos]
    exact List.mem_filter.2 ⟨mem_acqOrder r, hactive ▸ hr⟩

/-- The lines after BRINGUP (R109). -/
structure LinesUp (v : Byte) (s : State) : Prop where
  held : ∀ r, s.active.get r = true → (s.pin.get r).acq = true ∧ (s.pin.get r).dir = .output
  low  : ∀ r, isDataOrRs r = false → s.active.get r = true → (s.pin.get r).lvl = some false
  rs   : s.pin.rs.lvl = some false
  data : dataLines s = some (v.toNat % 16)

theorem exists_bringup_enables (t : BringupTarget) (nc : Option Controllers) : ∃ es, enables t.target nc = some es := by
  cases t with
  | all =>
    by_cases hnc : nc = some .two
    · exact ⟨_, if_pos hnc⟩
    · exact ⟨_, if_neg hnc⟩
  | first => exact ⟨_, rfl⟩

/-- BRINGUP after ACQALL (R105, R108). -/
theorem Between.bringup (h : Between params .pinsAcquired (.issue 0x3000 :: rest) s) (hok : RequestsSucceed 102 s)
    (hpins : ∀ r, s.active.get r = true → s.pin.get r = Pin.acquired) :
    ∃ n t, n ≤ 102 ∧ run n s = .next t ∧ Between params .controllerBroughtUp rest t ∧ LinesUp params.funcset4 t := by
  obtain ⟨es, henables⟩ := exists_bringup_enables s.params.bringupTarget s.cfgNc
  have hlength := (enableChoice_of_enables henables).length_le
  have hwrites : WritesSucceed (78 + 12 * es.length) s := (hok.mono (by omega)).writes
  obtain ⟨t₁, t, hexec, hrun, hended, hphase, -, -, -, -, hrs, hdata, hlow, hother, hhold, hfault, -, ⟨-, -, hactive, -⟩,
    hworld⟩ := bringupSendsResetSequence { s with host := rest } es (h.inv.withHost rest) h.idle h.phase henables hwrites
  obtain ⟨hrun', hbetween⟩ := Between.command (i := .bringup) h rfl hexec hrun hended hphase hfault hworld
  refine ⟨_, t, by omega, hrun', hbetween, ⟨fun r hr => ?_, fun r hdataOrRs hr => ?_, hrs, ?_⟩⟩
  · obtain ⟨hacq, hdir, -⟩ := hhold r
    rw [hacq, hdir, hpins r (hactive ▸ hr)]
    exact ⟨rfl, rfl⟩
  · by_cases hes : r ∈ es
    · exact hlow r hes
    · rw [hother r hdataOrRs hes, hpins r (hactive ▸ hr)]
      rfl
  · rw [hdata, ← h.params]

/-- START (R107). -/
theorem Between.start (h : Between params .controllerBroughtUp (.issue 0x4000 :: rest) s) :
    ∃ t, run 1 s = .next t ∧ Between params .operational rest t ∧ t.pin = s.pin ∧ t.active = s.active ∧
      t.hooks = (if s.active.bl then 0b11 else 0b01) := by
  obtain ⟨t, hexec, hended, hphase, hhooks, -, hpin, hfault, -, ⟨-, -, hactive, -⟩, hworld, -⟩ :=
    startRegistersHooks.2 { s with host := rest } h.idle h.phase
  obtain ⟨hrun, hbetween⟩ := Between.command (i := .start) (n := 0) h rfl hexec rfl hended hphase hfault hworld
  exact ⟨t, hrun, hbetween, hpin, hactive, hhooks⟩

end

/-! ### The whole `init` -/

/-- Settles O36: BIND, ACQALL, BRINGUP and START take at most 1, 24, 102 and 1 steps, and the lines are BRINGUP's. -/
theorem initReachesOperational : Obligations.InitReachesOperational := by
  intro params inputs script ix s hids hok
  have hreset : Between params .unconfigured [.issue 0x1000, .issue 0x2000, .issue 0x3000, .issue 0x4000] s :=
    ⟨instanceOf_invariant _ _ _ _ _, rfl, rfl, rfl, rfl, rfl, rfl⟩
  obtain ⟨s1, hrun1, h1⟩ := hreset.bind (hok 0 (by decide)).1 hids
  have hok1 : RequestsSucceed 127 s1 := hok.after hrun1 le_rfl
  obtain ⟨n2, s2, hn2, hrun2, h2, hpins⟩ := h1.acqall (hok1.mono (by decide))
  have hok2 : RequestsSucceed 103 s2 := hok1.after hrun2 (by omega)
  obtain ⟨n3, s3, hn3, hrun3, h3, hlines⟩ := h2.bringup (hok2.mono (by decide)) hpins
  obtain ⟨t, hrun4, ⟨hinv, hidle, hphase, hhost, -, hclean, hresp⟩, hpin, hactive, hhooks⟩ := h3.start
  have hrun : run (1 + (n2 + (n3 + 1))) s = .next t := by rw [run_add hrun1, run_add hrun2, run_add hrun3, hrun4]
  have hbound : Bound t := hinv.steady.bound (.inr (by rw [hphase]; rfl))
  have ht : LinesUp params.funcset4 t := by
    obtain ⟨hheld, hlow, hrs, hdata⟩ := hlines
    rw [← hpin] at hheld hlow hrs
    rw [← hactive] at hheld hlow
    exact ⟨hheld, hlow, hrs, by simpa only [dataLines, hpin] using hdata⟩
  refine ⟨_, t, by omega, hrun, hphase, hidle, hhost, hclean, hresp, ht.held, ht.low .en rfl hbound.required.1,
    ht.low .en2 rfl, ht.rs, ht.data, ht.low .bl rfl, ?_⟩
  rw [hhooks, hactive]

end Sys2Proof.Machine

/-! # Faults: legal phases, the first fault, and later ones

`Answer` says what a command's own rule and its primitives can do to RESP and FAULT: answer nothing or success, or raise a
fault other than IllegalPhase, which only dispatch raises (R113). -/

namespace Sys2Proof.Machine

/-! ### The codes of faults (R70, R113) -/

/-- RESP at a fault: F = 1 and the code (R70). -/
theorem respFault_eq_or (c : FaultCode) : respFault c = 0x80 ||| (c.code.setWidth 8) := by
  cases c <;> rfl

theorem code_ne_illegalPhase {c : FaultCode} (h : c ≠ .illegalPhase) : c.code ≠ FaultCode.illegalPhase.code := by
  revert h
  cases c <;> decide

theorem respFault_ne_illegalPhase {c : FaultCode} (h : c ≠ .illegalPhase) : respFault c ≠ respFault .illegalPhase := by
  revert h
  cases c <;> decide

/-- Settles O41: the fault procedure keeps a recorded fault, and its byte is 0x80 | code. -/
theorem faultIsSticky : Obligations.FaultIsSticky :=
  ⟨fun _ _ hvalid h => step_fault_of_valid h hvalid,
    fun c role id _ hvalid => ⟨recordFault_of_valid hvalid c role id, respFault_eq_or c⟩⟩

/-! ### What a command's own steps do to RESP and FAULT -/

/-- u is s after writes that the fault procedure neither reads nor makes: PHASE, FAULT, HOOKS, the binding, CUR and RESP are
those of s. -/
structure Unanswered (s u : State) : Prop where
  untouched : Untouched s u
  cur       : u.cur = s.cur
  resp      : u.resp = s.resp

/-- What a command's own rule or a primitive of it makes of RESP and FAULT: FAULT stays and the command goes on or ends with
success, or it raises a fault that is not dispatch's (R113). -/
inductive Answer (s : State) : State → Prop where
  | faultless {t : State} : t.fault = s.fault → (t.resp = s.resp ∨ t.resp = respOk) → Answer s t
  | faults {u : State} (c : FaultCode) (role : Option Role) (id : Option Nat) : c ≠ .illegalPhase → Unanswered s u →
      Answer s (raise c role id u)

theorem Unanswered.refl (s : State) : Unanswered s s := ⟨.refl s, rfl, rfl⟩

theorem Unanswered.starting (plan : List Prim) (f : Finish) (s : State) : Unanswered s (starting plan f s) :=
  ⟨.refl s, rfl, rfl⟩

theorem Unanswered.trans {s t u : State} (h : Unanswered s t) (h' : Unanswered t u) : Unanswered s u :=
  ⟨h.untouched.trans h'.untouched, h'.cur.trans h.cur, h'.resp.trans h.resp⟩

theorem Unanswered.fault {s u : State} (h : Unanswered s u) : u.fault = s.fault := by
  obtain ⟨-, hfault, -⟩ := h.untouched
  exact hfault

theorem Touched.unanswered {p : Prim} {s u : State} (h : Touched p s u) : Unanswered s u := by
  obtain ⟨-, hcur, -, hresp⟩ := h.command
  exact ⟨h.untouched, hcur, hresp⟩

theorem Unanswered.answer {s u t : State} (h : Unanswered s u) (ht : Answer u t) : Answer s t := by
  cases ht with
  | faultless hfault hresp => exact .faultless (hfault.trans h.fault) (hresp.imp_left (·.trans h.resp))
  | faults c role id hc hu => exact .faults c role id hc (h.trans hu)

theorem finish_answer (f : Finish) (s : State) : Answer s (finish f s) := by
  cases f with
  | unavailable r => exact .faults _ _ _ nofun (.refl s)
  | done | acquired | broughtUp | closed => exact .faultless rfl (.inr rfl)

theorem continueWith_answer (plan : List Prim) (f : Finish) (s : State) : Answer s (continueWith plan f s) := by
  cases plan with
  | nil => exact finish_answer f s
  | cons p ps => exact .faultless rfl (.inl rfl)

theorem nextStage_answer (s : State) : Answer s (nextStage s) := .faultless rfl (.inl rfl)

theorem advance_answer (s : State) : Answer s (advance s) := continueWith_answer s.plan.tail s.fin s

theorem acquireFailed_answer (r : Role) (s : State) : Answer s (acquireFailed r s) :=
  continueWith_answer (unwindSeq s.params s.active r) (.unavailable r) s

/-- A primitive raises PinUnavailable, WriteFailure or PinNotAcquired, or none (R81 to R84). -/
theorem primStep_answer (p : Prim) (d : Draw) (s : State) : Answer s (primStep p d s) := by
  have hemit := Touched.emit p s
  have hsame := Touched.refl p s
  cases p with
  | acq r =>
    show Answer s (acquireStep r d s)
    rcases acquireStep_cases r d s with
      ⟨-, -, h⟩ | ⟨-, -, h⟩ | ⟨-, -, h⟩ | ⟨-, -, h⟩ | ⟨-, h⟩ <;> rw [h]
    · exact hemit.unanswered.answer (nextStage_answer _)
    · exact hemit.unanswered.answer (acquireFailed_answer r _)
    · exact nextStage_answer s
    · exact (hsame.setPin r _).unanswered.answer (advance_answer _)
    · exact acquireFailed_answer r s
  | wr r b =>
    show Answer s (writeStep r b d s)
    rcases writeStep_cases r b d s with ⟨-, -, h⟩ | ⟨-, -, h⟩ | ⟨-, h⟩ <;> rw [h]
    · exact ((hemit.observe r _ d).setPin r _).unanswered.answer (advance_answer _)
    · exact .faults _ _ _ nofun ((hemit.observe r _ d).setPin r _).unanswered
    · exact .faults _ _ _ nofun (.refl s)
  | rel r =>
    show Answer s (releaseStep r d s)
    rcases releaseStep_cases r d s with ⟨-, -, h⟩ | ⟨-, -, h⟩ | ⟨-, h⟩ | ⟨-, h⟩ <;> rw [h]
    · exact (hemit.observe r _ d).unanswered.answer (nextStage_answer _)
    · exact hemit.unanswered.answer (advance_answer _)
    · exact nextStage_answer s
    · exact (hsame.setPin r _).unanswered.answer (advance_answer _)
  | dly c => exact (hemit.sleepBound _).unanswered.answer (advance_answer _)

theorem begin_answer (plan : List Prim) (f : Finish) (d : Draw) (s : State) : Answer s (begin plan f d s) := by
  cases plan with
  | nil => exact finish_answer f s
  | cons p ps => exact (Unanswered.starting (p :: ps) f s).answer (primStep_answer p d _)

/-- Apart from its primitives' faults, BIND raises AllocationFailure or BindingAlias, and BRINGUP and SEND raise
TargetUnavailable (R90, R101, R102, R105). -/
theorem ruleOf_answer (i : Instr) (d : Draw) (s : State) : Answer s (ruleOf i d s) := by
  cases i with
  | bind =>
    show Answer s (bindRule d s)
    unfold bindRule
    split
    · split
      · exact .faults _ _ _ nofun (.refl s)
      · exact .faultless rfl (.inr rfl)
    · exact .faults _ _ _ nofun (.refl s)
  | acqall => exact begin_answer _ _ d s
  | bringup =>
    show Answer s (bringupRule d s)
    unfold bringupRule
    split
    · exact .faults _ _ _ nofun (.refl s)
    · exact begin_answer _ _ d s
  | start => exact .faultless rfl (.inr rfl)
  | send tgt mode value =>
    show Answer s (sendRule tgt mode value d s)
    unfold sendRule
    split
    · exact .faults _ _ _ nofun (.refl s)
    · exact begin_answer _ _ d s
  | bl state => exact begin_answer _ _ d s
  | close =>
    show Answer s (closeRule d s)
    unfold closeRule
    split
    · exact .faultless rfl (.inr rfl)
    · exact begin_answer _ _ d s
  | uacq _ | uwr _ _ | urel _ | udly _ => exact .faultless rfl (.inl rfl)

/-! ### Legal phases (R114) -/

/-- R114's pairs. -/
theorem legal_iff {i : Instr} (hcommand : isCommand i = true) (p : Phase) :
    legal i p = true ↔ (i = .bind ∧ p = .unconfigured) ∨ (i = .acqall ∧ p = .pinsBound) ∨
      (i = .bringup ∧ p = .pinsAcquired) ∨ (i = .start ∧ p = .controllerBroughtUp) ∨
      ((∃ tgt mode v, i = .send tgt mode v) ∧ p = .operational) ∨ ((∃ b, i = .bl b) ∧ p = .operational) ∨
      i = .close := by
  cases i with
  | bind | acqall | bringup | start | send _ _ _ | bl _ | close => simp [legal]
  | uacq _ | uwr _ _ | urel _ | udly _ => cases hcommand

/-- IllegalPhase in RESP or FAULT after a command's own step was there before it. -/
theorem Answer.not_illegalPhase {s t : State} (h : Answer s t) :
    (t.resp = respFault .illegalPhase → t.resp = s.resp) ∧
      (t.fault.code = FaultCode.illegalPhase.code → t.fault = s.fault) := by
  cases h with
  | faultless hfault hresp =>
    refine ⟨fun hillegal => hresp.resolve_right fun hok => ?_, fun _ => hfault⟩
    exact absurd (hok.symm.trans hillegal) (by decide)
  | @faults u c role id hc hu =>
    refine ⟨fun hillegal => absurd hillegal (respFault_ne_illegalPhase hc), fun hillegal => ?_⟩
    rw [raise_fault] at hillegal ⊢
    unfold recordFault at hillegal ⊢
    split at hillegal
    · next hvalid => rw [if_pos hvalid, hu.fault]
    · exact absurd hillegal (code_ne_illegalPhase hc)

/-- Settles O39: outside R114's pairs dispatch faults; in one of them only the command's own rule can. -/
theorem phaseLegality : Obligations.PhaseLegality := by
  intro i s hcommand hidle isLegal
  have hiff : legal i s.phase = true ↔ isLegal := legal_iff hcommand s.phase
  refine ⟨fun hillegal => ?_, fun hlegal => ?_⟩
  · have hphase : legal i s.phase = false := Bool.eq_false_iff.2 (mt hiff.1 hillegal)
    exact ⟨_, exec_illegalPhase hcommand hidle hphase, raise_accepted_faulted _ _ _ _ _ s, rfl, rfl, ⟨rfl, rfl⟩,
      ⟨rfl, rfl, rfl, rfl⟩, rfl, ⟨rfl, rfl, rfl⟩, rfl, rfl, rfl⟩
  · exact ⟨_, exec_legal hcommand hidle (hiff.2 hlegal),
      (ruleOf_answer i s.draw (accepted (encode i) s)).not_illegalPhase⟩

/-! ### The first fault (R116) -/

/-- The fault procedure took a command from s to t, after writes that it does not read. -/
def Raised (s t : State) : Prop := ∃ c role id u, Unanswered s u ∧ t = raise c role id u

theorem Raised.of_raise (c : FaultCode) (role : Option Role) (id : Option Nat) (s : State) : Raised s (raise c role id s) :=
  ⟨c, role, id, s, .refl s, rfl⟩

/-- FAULT is first set by the fault procedure. -/
theorem Answer.raised {s t : State} (h : Answer s t) (hclean : s.fault.valid = false) (hvalid : t.fault.valid = true) :
    Raised s t := by
  cases h with
  | faultless hfault hresp =>
    rw [hfault, hclean] at hvalid
    cases hvalid
  | faults c role id hc hu => exact ⟨c, role, id, _, hu, rfl⟩

/-- A step that sets FAULT: the fault procedure in the running command, or in the one that it accepts. -/
theorem raised_of_step {s t : State} (h : step s = .next t) (hclean : s.fault.valid = false)
    (hvalid : t.fault.valid = true) :
    ∃ v, t = elapse s.draw v ∧ ((s.busy = true ∧ Raised s v) ∨
      (s.busy = false ∧ ∃ w rest, s.host = .issue w :: rest ∧ Raised (accepted w { s with host := rest }) v)) := by
  obtain ⟨-, hcases⟩ := step_cases h
  rcases hcases with ⟨hbusy, p, ps, -, rfl⟩ | ⟨-, -, rfl⟩ | ⟨hidle, w, rest, i, hhost, hdecode, -, rfl⟩ |
    ⟨hidle, w, rest, e, hhost, -, rfl⟩
  · exact ⟨_, rfl, .inl ⟨hbusy, (primStep_answer p s.draw s).raised hclean hvalid⟩⟩
  · exact absurd (hclean.symm.trans hvalid) (by decide)
  · refine ⟨_, rfl, .inr ⟨hidle, w, rest, hhost, ?_⟩⟩
    rw [encode_of_decodePort hdecode] at hvalid ⊢
    split at hvalid
    · next hlegal =>
      rw [if_pos hlegal]
      exact (ruleOf_answer i s.draw _).raised hclean hvalid
    · next hlegal =>
      rw [if_neg hlegal]
      exact .of_raise _ _ _ _
  · exact ⟨_, rfl, .inr ⟨hidle, w, rest, hhost, .of_raise _ _ _ _⟩⟩

/-- What the fault procedure records and leaves, when it is the first (R116, R118). -/
theorem Raised.recorded {s v : State} (h : Raised s v) (hclean : s.fault.valid = false) (d : Draw) :
    (∃ c : FaultCode, v.fault.code = c.code ∧ Ended (0x80 ||| (c.code.setWidth 8)) (elapse d v)) ∧
      v.phase = (if s.phase = .released then .released else .failed) ∧ v.fault.cmd = s.cur.getD 0x0000 ∧
      SameBinding s v ∧ v.hooks = s.hooks := by
  obtain ⟨c, role, id, u, hu, rfl⟩ := h
  obtain ⟨hphase, hfault, hhooks, hbinding, -⟩ := hu.untouched
  have hrecord : (raise c role id u).fault =
      { valid := true, code := c.code, role := role, id := id, cmd := s.cur.getD 0x0000 } := by
    simp [recordFault, hfault, hclean, hu.cur]
  refine ⟨⟨c, by rw [hrecord], ?_⟩, by rw [raise_phase, hphase], by rw [hrecord], hbinding, hhooks⟩
  rw [← respFault_eq_or]
  exact endCommand_ended _ d _

/-- Settles O40: the command word is CUR, which is the presented word when the step accepts it. -/
theorem firstFaultIsRecorded : Obligations.FirstFaultIsRecorded := by
  intro s t hclean h hvalid
  obtain ⟨v, rfl, ⟨hbusy, hraised⟩ | ⟨hidle, w, rest, hhost, hraised⟩⟩ := raised_of_step h hclean hvalid
  · obtain ⟨hended, hphase, hcmd, hbinding, hhooks⟩ := hraised.recorded hclean s.draw
    exact ⟨hended, hphase, fun _ => hcmd, fun hidle => absurd (hbusy.symm.trans hidle) (by decide), hbinding, hhooks⟩
  · obtain ⟨hended, hphase, hcmd, hbinding, hhooks⟩ := hraised.recorded hclean s.draw
    refine ⟨hended, hphase, fun hbusy => absurd (hidle.symm.trans hbusy) (by decide), fun _ => ⟨rest, ?_⟩, hbinding, hhooks⟩
    rw [elapse_fault, hcmd]
    exact hhost

end Sys2Proof.Machine

/-! # Reset, and whole runs from it (R129, R144)

Unconfigured is the phase of reset only. A host with a move left is idle again within 102 steps with one move less, so every run
ends; and RESP is 0x00 in every reachable state without a recorded fault, so a clean run answered 0x00 throughout. -/

namespace Sys2Proof.Machine

/-! ### The reset state (R129) -/

/-- Settles O52: at reset there is no command, no binding record, no acquired pin and no fault, whatever the arguments. -/
theorem resetMeetsInvariant : Obligations.ResetMeetsInvariant := instanceOf_invariant

theorem raise_phase_ne_unconfigured (c : FaultCode) (role : Option Role) (id : Option Nat) (s : State) :
    (raise c role id s).phase ≠ .unconfigured := by
  rcases raise_phase_cases c role id s with ⟨-, h⟩ | ⟨-, h⟩ <;> rw [h] <;> nofun

/-- A closing action leaves PHASE or moves it on. -/
theorem finish_phase_of_unconfigured {f : Finish} {s : State} (h : (finish f s).phase = .unconfigured) :
    s.phase = .unconfigured := by
  cases f with
  | done => exact h
  | unavailable r => exact absurd h (raise_phase_ne_unconfigured _ _ _ s)
  | acquired | broughtUp | closed => cases h

theorem PrimEffect.phase_of_unconfigured {p : Prim} {s t : State} (h : PrimEffect p s t) (ht : t.phase = .unconfigured) :
    s.phase = .unconfigured := by
  cases h with
  | goesOn plan fin stage htouched =>
    obtain ⟨hphase, -⟩ := htouched.untouched
    exact hphase.symm.trans ht
  | finishes htouched =>
    obtain ⟨hphase, -⟩ := htouched.untouched
    exact hphase.symm.trans (finish_phase_of_unconfigured ht)
  | faults c role id htouched hrel => exact absurd ht (raise_phase_ne_unconfigured c role id _)

theorem Dispatched.phase_of_unconfigured {i : Instr} {d : Draw} {s t : State} (h : Dispatched i d s t)
    (ht : t.phase = .unconfigured) : s.phase = .unconfigured := by
  cases h with
  | runs p ps f hlegal hprogram => exact (primStep_effect p d (starting (p :: ps) f s)).phase_of_unconfigured ht
  | finishes f hlegal hprogram => exact finish_phase_of_unconfigured ht
  | binds hi hphase halias => exact hphase
  | starts hi hphase => cases ht
  | faults c role id hclose hstart => exact absurd ht (raise_phase_ne_unconfigured c role id s)

/-- Settles O51: the reset values are read off, and a step that is in Unconfigured after it was there before it. -/
theorem resetValues : Obligations.ResetValues := by
  refine ⟨?_, fun s t h ht => ?_⟩
  · rintro s rfl
    exact ⟨rfl, rfl, rfl, every_get false, every_get none, every_get Pin.idle, rfl, rfl, rfl, rfl, rfl, rfl, rfl, rfl, rfl,
      rfl⟩
  · obtain ⟨-, u, heffect, rfl⟩ := step_effect h
    cases heffect with
    | primitive p ps hbusy hplan => exact (primStep_effect p s.draw s).phase_of_unconfigured ht
    | idles hbusy hhost => exact ht
    | accepts w rest i hbusy hhost hdecode hword hdispatched => exact hdispatched.phase_of_unconfigured ht
    | rejects w rest e hbusy hhost hdecode =>
      exact absurd ht (raise_phase_ne_unconfigured .illegalCommand none none (accepted w { s with host := rest }))

/-! ### Every run ends (R112, R144) -/

theorem maxSteps_le (w : Word16) : maxSteps w ≤ 102 := by
  unfold maxSteps
  split <;> decide

/-- A run that comes to a state in which it is over ends there or before. -/
theorem exists_runEnds_of_run {n : Nat} {s t : State} (hrun : run n s = .next t) (hover : RunOver t) :
    ∃ k u, RunEnds s k u ∧ k ≤ n := by
  induction n generalizing s with
  | zero =>
    cases hrun
    exact ⟨0, _, runEnds_zero hover, le_rfl⟩
  | succ n ih =>
    by_cases hs : RunOver s
    · exact ⟨0, s, runEnds_zero hs, Nat.zero_le _⟩
    · obtain ⟨s₁, hstep, hrest⟩ := exists_first_of_run hrun
      obtain ⟨k, u, hends, hk⟩ := ih hrest
      exact ⟨k + 1, u, runEnds_succ hstep hs hends, Nat.succ_le_succ hk⟩

/-- The host's next move is over within 102 steps, the maximum of R112's bounds. -/
theorem Invariant.hostMove_ends {s : State} {move : HostMove} {rest : List HostMove} (h : Invariant s)
    (hidle : s.busy = false) (hhost : s.host = move :: rest) :
    ∃ n t, n ≤ 102 ∧ run n s = .next t ∧ t.busy = false ∧ t.host = rest := by
  cases move with
  | issue w =>
    obtain ⟨n, t, -, hn, hrun, hends⟩ := everyCommandEndsInTime s w rest h hidle hhost
    exact ⟨n, t, hn.trans (maxSteps_le w), hrun, hends⟩
  | idle =>
    have hstep : step s = hostIdle { s with host := rest } := by
      rw [step_eq_hostMove h.phase hidle, hostMove, hhost]
    exact ⟨1, _, by decide, run_succ hstep 0, hidle, rfl⟩

/-- From an idle state the host's moves are over within 102 steps each. -/
theorem Invariant.run_comes_over {s : State} (h : Invariant s) (hidle : s.busy = false) :
    ∃ n t, n ≤ 102 * s.host.length ∧ run n s = .next t ∧ RunOver t := by
  induction hhost : s.host generalizing s with
  | nil => exact ⟨0, s, Nat.zero_le _, rfl, by rw [hhost]; rfl, hidle⟩
  | cons move rest ih =>
    obtain ⟨m, u, hm, hfirst, hu, hrest⟩ := h.hostMove_ends hidle hhost
    obtain ⟨n, t, hn, hlater, hover⟩ := ih (h.of_run hfirst) hu hrest
    refine ⟨m + n, t, ?_, (run_add hfirst n).trans hlater, hover⟩
    rw [List.length_cons]
    omega

/-- Settles O58: the run comes over within 102 steps a move, so there is a first state in which it is over. -/
theorem everyRunEnds : Obligations.EveryRunEnds := by
  intro params inputs host script ix
  obtain ⟨m, u, hm, hrun, hover⟩ := (instanceOf_invariant params inputs host script ix).run_comes_over rfl
  obtain ⟨n, t, hends, hn⟩ := exists_runEnds_of_run hrun hover
  exact ⟨n, t, hends, hn.trans hm⟩

/-! ### Clean runs (R120, R144) -/

/-- RESP is 0x00, or a fault is recorded. -/
def OkOrFaulted (s : State) : Prop := s.resp = respOk ∨ s.fault.valid = true

theorem Answer.okOrFaulted {s t : State} (h : Answer s t) (hs : OkOrFaulted s) : OkOrFaulted t := by
  cases h with
  | faultless hfault hresp =>
    rcases hresp with hsame | hok
    · rwa [OkOrFaulted, hsame, hfault]
    · exact .inl hok
  | faults c role id hc hu => exact .inr (raise_fault_valid c role id _)

theorem step_okOrFaulted {s t : State} (h : step s = .next t) (hs : OkOrFaulted s) : OkOrFaulted t := by
  obtain ⟨-, hcases⟩ := step_cases h
  rcases hcases with ⟨-, p, ps, -, rfl⟩ | ⟨-, -, rfl⟩ | ⟨-, w, rest, i, -, -, -, rfl⟩ | ⟨-, w, rest, e, -, -, rfl⟩
  · exact (primStep_answer p s.draw s).okOrFaulted hs
  · exact hs
  · split
    · exact (ruleOf_answer i s.draw (accepted (encode i) { s with host := rest })).okOrFaulted hs
    · exact .inr (raise_fault_valid _ _ _ _)
  · exact .inr (raise_fault_valid _ _ _ _)

theorem Reachable.okOrFaulted {s : State} (h : Reachable s) : OkOrFaulted s := by
  induction h with
  | reset => exact .inl rfl
  | step _ hstep ih => exact step_okOrFaulted hstep ih

/-- A run of j + k steps passes through the state after j steps. -/
theorem exists_run_of_run_add {j k : Nat} {s t : State} (h : run (j + k) s = .next t) :
    ∃ u, run j s = .next u ∧ run k u = .next t := by
  induction j generalizing s with
  | zero => exact ⟨s, rfl, Nat.zero_add k ▸ h⟩
  | succ j ih =>
    rw [Nat.add_right_comm] at h
    obtain ⟨s₁, hstep, hrest⟩ := exists_first_of_run h
    obtain ⟨u, hu, hlater⟩ := ih hrest
    exact ⟨u, (run_succ hstep j).trans hu, hlater⟩

/-- Settles O59: a recorded fault would stay to the end, and without one the invariant and `OkOrFaulted` give FAULT, PHASE and
RESP. -/
theorem cleanRunsHaveNoFault : Obligations.CleanRunsHaveNoFault := by
  rintro params inputs host script ix n t ⟨⟨hrun, -, -⟩, hclean⟩ k hk
  obtain ⟨m, rfl⟩ := Nat.exists_eq_add_of_le hk
  obtain ⟨u, hu, hlater⟩ := exists_run_of_run_add hrun
  have hvalid : u.fault.valid = false := fault_not_valid_of_run hlater hclean
  have hreachable : Reachable u := reachable_of_run (.reset params inputs host script ix) hu
  obtain ⟨-, hnone⟩ := hreachable.invariant.fault
  obtain ⟨hfault, hphase⟩ := hnone hvalid
  exact ⟨u, hu, hfault, hreachable.okOrFaulted.resolve_right (Bool.eq_false_iff.1 hvalid), hphase⟩

end Sys2Proof.Machine
